-- ==== Sys2Proof/Word.lean ====
section
/-! DEFINITION. Words and bytes (00_scope R11, R12). Single bits and line levels are `Bool`, with `true` for 1. -/

namespace Sys2Proof

/-- A command word or a 32-bit register (R33, R90). -/
abbrev Word := BitVec 32

/-- A byte, 0x00 to 0xFF (R11). -/
abbrev Byte := BitVec 8

/-- A 16-bit CRC value (R170). -/
abbrev Half := BitVec 16

/-- `le16(h)`: the two bytes of `h`, low byte first (R12, R72). -/
def le16 (h : Half) : List Byte := [h.extractLsb' 0 8, h.extractLsb' 8 8]

/-- `zext_32(v)` (R12). -/
def zext32 {n : Nat} (v : BitVec n) : Word := v.setWidth 32

end Sys2Proof
end

