-- ==== Sys2Proof/Config.lean ====
section
/-! DEFINITION. The fixed parameters of 00_scope R7 and the OPEN parameters of R8. -/

namespace Sys2Proof

/-- `RX_CAP`, `TX_CAP`, `OUT_CAP` and `MAX_LEN`: 64 bytes (R7). -/
abbrev Config.frameCap : Nat := 64

/-- `MIN_LEN`, the least legal frame length: header and CRC (R7, R108, C3). -/
abbrev Config.minLen : Nat := 6

/-- `HDR`, the header size (R7). -/
abbrev Config.headerSize : Nat := 4

/-- `STM_CAP`, the size of the STM receive buffer (R7). -/
abbrev Config.stmCap : Nat := 20

/-- `MEAS_ITER` (R7). -/
abbrev Config.measIter : BitVec 4 := 10

/-- `PROBE_ITER` (R7). -/
abbrev Config.probeIter : BitVec 4 := 3

/-- `TX_FAIL_MAX` (R7, C4). -/
abbrev Config.txFailMax : BitVec 3 := 5

/-- `CR` (R7, R26). -/
abbrev Config.cr : Byte := 0x0D

/-- `LF` (R7, R26). -/
abbrev Config.lf : Byte := 0x0A

/-- `SP` (R7, R26). -/
abbrev Config.sp : Byte := 0x20

/-- `MINUS` (R7, R26). -/
abbrev Config.minus : Byte := 0x2D

/-- `DOT` (R7, R26). -/
abbrev Config.dot : Byte := 0x2E

/-- `FAM1_CODE`, `'z'`, the family with minus and decimal-point handling (R7, R116). -/
abbrev Config.fam1Code : Byte := 0x7A

/-- The OPEN parameters a model takes as arguments, with the laws R8 and R175 put on them. -/
structure Params where
  /-- `FAM2_CODE` (R8, N9). -/
  fam2Code : Byte
  /-- `FAM3_CODE` (R8, N9). -/
  fam3Code : Byte
  /-- `PROTOCOL_VERSION`, unused by the block (R8, R105, N12). -/
  protocolVersion : Byte
  /-- `SENSOR_TYPE_DEFAULT` (R8, R61, N11). -/
  sensorTypeDefault : Byte
  /-- `CRC16_TX` (R170, N3). -/
  crc16Tx : List Byte → Half
  /-- `CRC_RX_OK` (R170, N3). -/
  crcRxOk : List Byte → Bool
  /-- R8: the family codes are distinct. -/
  fam2_ne_fam1 : fam2Code ≠ Config.fam1Code
  fam3_ne_fam1 : fam3Code ≠ Config.fam1Code
  fam2_ne_fam3 : fam2Code ≠ fam3Code
  /-- R175: the round-trip law. -/
  round_trip : ∀ g : List Byte, 4 ≤ g.length → g.length ≤ 62 → crcRxOk (g ++ le16 (crc16Tx g)) = true

/-- The OPEN parameters' values: no body, so nothing in Lean can tell what they are beyond the laws
of `Params` (assumption 4). The argument only says that some value exists. -/
opaque Config.openParams [Inhabited Params] : Params

end Sys2Proof
end

