-- ==== Sys2Proof/Syntax.lean ====
section
/-! DEFINITION. The fourteen commands of 30_encoding R92 with their operands (R93). -/

namespace Sys2Proof

/-- A sensor channel, numbered 0 to 3 (R7, D29). -/
inductive Channel where
  | c0 | c1 | c2 | c3
deriving DecidableEq, Repr

/-- A buffer id: 0 `RX_BUF`, 1 `TX_BUF`, 2 `OUT_BUF`, 3 `STM_BUF` (R70). -/
inductive BufId where
  | rx | tx | out | stm
deriving DecidableEq, Repr

/-- The CRC mode: 0 send, 1 receive (R93, R195). -/
inductive CrcMode where
  | send | recv
deriving DecidableEq, Repr

/-- A register id of REG.READ, 0x00 to 0x0B (R286). -/
inductive RegId where
  | rxIdx
  | stmIdx
  | temp
  | soil
  | stype (ch : Channel)
  | tocnt
  | stmLast
  | lines
  | cpFail
deriving DecidableEq, Repr

/-- One constructor per row of the opcode table. -/
inductive Instr where
  /-- R120 -/
  | cpWaitstart
  /-- R130 -/
  | cpSendbyte (v : Byte)
  /-- R140 -/
  | cpRecvbyte
  /-- R180 -/
  | cpWaitmsg
  /-- R185 -/
  | cpSendmsg (len : Byte)
  /-- R190 -/
  | cpGrabmsg
  /-- R195 -/
  | crcRun (mode : CrcMode) (len : Byte)
  /-- R230 -/
  | stmMeasure (ch : Channel)
  /-- R235 -/
  | stmTypeprobe (ch : Channel)
  /-- R255 -/
  | stmChecksum
  /-- R262 -/
  | stmParse
  /-- R280 -/
  | bufWrite (buf : BufId) (idx : Byte) (v : Byte)
  /-- R283 -/
  | bufRead (buf : BufId) (idx : Byte)
  /-- R286 -/
  | regRead (reg : RegId)
deriving DecidableEq, Repr

end Sys2Proof
end

