-- ==== Sys2Proof/WellFormed.lean ====
section
/-! DEFINITION. The operand ranges of 30_encoding R93 that the types of the operands do not already give. -/

namespace Sys2Proof

/-- The size of a buffer (R70). -/
def BufId.cap : BufId → Nat
  | .rx => Config.frameCap
  | .tx => Config.frameCap
  | .out => Config.frameCap
  | .stm => Config.stmCap

/-- A legal frame length: 6 to 64 (R93, R108). -/
def legalLen (len : Byte) : Bool := Config.minLen ≤ len.toNat && len.toNat ≤ Config.frameCap

/-- A legal buffer index (R71, R93). -/
def legalIdx (buf : BufId) (idx : Byte) : Bool := idx.toNat < buf.cap

/-- The operands of an instruction are in the ranges of R93. -/
def Instr.wellFormed : Instr → Bool
  | .cpWaitstart => true
  | .cpSendbyte _ => true
  | .cpRecvbyte => true
  | .cpWaitmsg => true
  | .cpSendmsg len => legalLen len
  | .cpGrabmsg => true
  | .crcRun _ len => legalLen len
  | .stmMeasure _ => true
  | .stmTypeprobe _ => true
  | .stmChecksum => true
  | .stmParse => true
  | .bufWrite buf idx _ => legalIdx buf idx
  | .bufRead buf idx => legalIdx buf idx
  | .regRead _ => true

end Sys2Proof
end

