-- ==== Sys2Proof/Decode.lean ====
section
/-! DEFINITION. The command word (30_encoding R90–R95): its fields, the decoder, the encoder and the opcode table. -/

namespace Sys2Proof

/-- `OPC`, bits 31:24 (R90). -/
def fieldOpc (w : Word) : Byte := w.extractLsb' 24 8

/-- `FA`, bits 23:16 (R90). -/
def fieldA (w : Word) : Byte := w.extractLsb' 16 8

/-- `FB`, bits 15:8 (R90). -/
def fieldB (w : Word) : Byte := w.extractLsb' 8 8

/-- `FC`, bits 7:0 (R90). -/
def fieldC (w : Word) : Byte := w.extractLsb' 0 8

/-- Why a word is illegal (R94). All three are reported alike, by `STATUS.ILLEGAL` (R303, R304). -/
inductive DecodeError where
  /-- `OPC` is not in R92's table. -/
  | unassignedOpcode
  /-- A field the command does not use is not 0x00. -/
  | unusedField
  /-- An operand is outside R93's range. -/
  | operandRange
deriving DecidableEq, Repr

def channelOf : Byte → Except DecodeError Channel
  | 0x00 => .ok .c0
  | 0x01 => .ok .c1
  | 0x02 => .ok .c2
  | 0x03 => .ok .c3
  | _ => .error .operandRange

def bufOf : Byte → Except DecodeError BufId
  | 0x00 => .ok .rx
  | 0x01 => .ok .tx
  | 0x02 => .ok .out
  | 0x03 => .ok .stm
  | _ => .error .operandRange

def modeOf : Byte → Except DecodeError CrcMode
  | 0x00 => .ok .send
  | 0x01 => .ok .recv
  | _ => .error .operandRange

/-- The register ids of R286's table. -/
def regOf : Byte → Except DecodeError RegId
  | 0x00 => .ok .rxIdx
  | 0x01 => .ok .stmIdx
  | 0x02 => .ok .temp
  | 0x03 => .ok .soil
  | 0x04 => .ok (.stype .c0)
  | 0x05 => .ok (.stype .c1)
  | 0x06 => .ok (.stype .c2)
  | 0x07 => .ok (.stype .c3)
  | 0x08 => .ok .tocnt
  | 0x09 => .ok .stmLast
  | 0x0A => .ok .lines
  | 0x0B => .ok .cpFail
  | _ => .error .operandRange

/-- R91: a field the command does not use must be 0x00. -/
def ifUnused (unused : List Byte) (r : Except DecodeError Instr) : Except DecodeError Instr :=
  if unused.all (· = 0x00) then r else .error .unusedField

/-- R93: the operands must be in range. -/
def ifLegal (i : Instr) : Except DecodeError Instr :=
  if i.wellFormed then .ok i else .error .operandRange

/-- Decoding is total: every word is one command with legal operands, or illegal (R92–R95). -/
def decode (w : Word) : Except DecodeError Instr :=
  let a := fieldA w
  let b := fieldB w
  let c := fieldC w
  match fieldOpc w with
  | 0x01 => ifUnused [a, b, c] (.ok .cpWaitstart)
  | 0x02 => ifUnused [a, b] (.ok (.cpSendbyte c))
  | 0x03 => ifUnused [a, b, c] (.ok .cpRecvbyte)
  | 0x04 => ifUnused [a, b, c] (.ok .cpWaitmsg)
  | 0x05 => ifUnused [a, c] (ifLegal (.cpSendmsg b))
  | 0x06 => ifUnused [a, b, c] (.ok .cpGrabmsg)
  | 0x07 => ifUnused [c] ((modeOf a).bind fun m => ifLegal (.crcRun m b))
  | 0x10 => ifUnused [b, c] ((channelOf a).bind fun ch => .ok (.stmMeasure ch))
  | 0x11 => ifUnused [b, c] ((channelOf a).bind fun ch => .ok (.stmTypeprobe ch))
  | 0x12 => ifUnused [a, b, c] (.ok .stmChecksum)
  | 0x13 => ifUnused [a, b, c] (.ok .stmParse)
  | 0x20 => (bufOf a).bind fun buf => ifLegal (.bufWrite buf b c)
  | 0x21 => ifUnused [c] ((bufOf a).bind fun buf => ifLegal (.bufRead buf b))
  | 0x22 => ifUnused [b, c] ((regOf a).bind fun reg => .ok (.regRead reg))
  | _ => .error .unassignedOpcode

/-- The decoder on the table's bit numbering: a command is exactly 32 bits (R90), so a longer word is none. -/
def decodeTableWord (nbits w : Nat) : Option Instr :=
  if w % 2 ^ nbits < 2 ^ 32 then (decode (BitVec.ofNat 32 (w % 2 ^ nbits))).toOption else none

def Channel.code : Channel → Byte
  | .c0 => 0x00
  | .c1 => 0x01
  | .c2 => 0x02
  | .c3 => 0x03

def BufId.code : BufId → Byte
  | .rx => 0x00
  | .tx => 0x01
  | .out => 0x02
  | .stm => 0x03

def CrcMode.code : CrcMode → Byte
  | .send => 0x00
  | .recv => 0x01

def RegId.code : RegId → Byte
  | .rxIdx => 0x00
  | .stmIdx => 0x01
  | .temp => 0x02
  | .soil => 0x03
  | .stype .c0 => 0x04
  | .stype .c1 => 0x05
  | .stype .c2 => 0x06
  | .stype .c3 => 0x07
  | .tocnt => 0x08
  | .stmLast => 0x09
  | .lines => 0x0A
  | .cpFail => 0x0B

/-- The opcode of a command (R92). -/
def Instr.opcode : Instr → Byte
  | .cpWaitstart => 0x01
  | .cpSendbyte _ => 0x02
  | .cpRecvbyte => 0x03
  | .cpWaitmsg => 0x04
  | .cpSendmsg _ => 0x05
  | .cpGrabmsg => 0x06
  | .crcRun _ _ => 0x07
  | .stmMeasure _ => 0x10
  | .stmTypeprobe _ => 0x11
  | .stmChecksum => 0x12
  | .stmParse => 0x13
  | .bufWrite _ _ _ => 0x20
  | .bufRead _ _ => 0x21
  | .regRead _ => 0x22

/-- The operand fields `FA`, `FB`, `FC` of a command (R91, R92). -/
def Instr.operands : Instr → Byte × Byte × Byte
  | .cpWaitstart => (0, 0, 0)
  | .cpSendbyte v => (0, 0, v)
  | .cpRecvbyte => (0, 0, 0)
  | .cpWaitmsg => (0, 0, 0)
  | .cpSendmsg len => (0, len, 0)
  | .cpGrabmsg => (0, 0, 0)
  | .crcRun mode len => (mode.code, len, 0)
  | .stmMeasure ch => (ch.code, 0, 0)
  | .stmTypeprobe ch => (ch.code, 0, 0)
  | .stmChecksum => (0, 0, 0)
  | .stmParse => (0, 0, 0)
  | .bufWrite buf idx v => (buf.code, idx, v)
  | .bufRead buf idx => (buf.code, idx, 0)
  | .regRead reg => (reg.code, 0, 0)

/-- A word from its four fields (R90). -/
def wordOf (opc a b c : Byte) : Word := opc ++ a ++ b ++ c

/-- The word of a command (R90–R92). -/
def encode (i : Instr) : Word := wordOf i.opcode i.operands.1 i.operands.2.1 i.operands.2.2

/-- A row of spec/opcode_table.json: a word `w` is of the row when `w &&& mask = pattern`. -/
structure OpcodeRow where
  mnemonic : String
  pattern : Word
  mask : Word
deriving DecidableEq, Repr

/-- spec/opcode_table.json, in its order. -/
def opcodeTable : List OpcodeRow :=
  [ ⟨"CP.WAITSTART", 0x01000000, 0xFFFFFFFF⟩,
    ⟨"CP.SENDBYTE", 0x02000000, 0xFFFFFF00⟩,
    ⟨"CP.RECVBYTE", 0x03000000, 0xFFFFFFFF⟩,
    ⟨"CP.WAITMSG", 0x04000000, 0xFFFFFFFF⟩,
    ⟨"CP.SENDMSG", 0x05000000, 0xFFFF00FF⟩,
    ⟨"CP.GRABMSG", 0x06000000, 0xFFFFFFFF⟩,
    ⟨"CRC.RUN", 0x07000000, 0xFFFE00FF⟩,
    ⟨"STM.MEASURE", 0x10000000, 0xFFFCFFFF⟩,
    ⟨"STM.TYPEPROBE", 0x11000000, 0xFFFCFFFF⟩,
    ⟨"STM.CHECKSUM", 0x12000000, 0xFFFFFFFF⟩,
    ⟨"STM.PARSE", 0x13000000, 0xFFFFFFFF⟩,
    ⟨"BUF.WRITE", 0x20000000, 0xFFFC0000⟩,
    ⟨"BUF.READ", 0x21000000, 0xFFFC00FF⟩,
    ⟨"REG.READ", 0x22000000, 0xFFF0FFFF⟩ ]

/-- The row of a command, by its place in the table. -/
def Instr.rowIndex : Instr → Nat
  | .cpWaitstart => 0
  | .cpSendbyte _ => 1
  | .cpRecvbyte => 2
  | .cpWaitmsg => 3
  | .cpSendmsg _ => 4
  | .cpGrabmsg => 5
  | .crcRun _ _ => 6
  | .stmMeasure _ => 7
  | .stmTypeprobe _ => 8
  | .stmChecksum => 9
  | .stmParse => 10
  | .bufWrite _ _ _ => 11
  | .bufRead _ _ => 12
  | .regRead _ => 13

/-- `w` fits a row of the table. -/
def OpcodeRow.fits (r : OpcodeRow) (w : Word) : Bool := w &&& r.mask = r.pattern

end Sys2Proof
end

