-- ==== Sys2Proof/Machine/Crc.lean ====
section
/-! DEFINITION. The default CRC of 41_framer R171 and the parameters the machine runs with (R8, R170). -/

namespace Sys2Proof.Machine

/-- One of the eight bit steps of R171. -/
def crcBit (crc : Half) : Half :=
  if crc.msb then (crc <<< 1) ^^^ 0x1021 else crc <<< 1

/-- One byte of R171. -/
def crcByte (crc : Half) (b : Byte) : Half :=
  crcBit (crcBit (crcBit (crcBit (crcBit (crcBit (crcBit (crcBit (crc ^^^ (b.setWidth 16 <<< 8)))))))))

/-- `CRC16_TX` of R171: CRC-16/CCITT-FALSE. -/
def crcDefault (bytes : List Byte) : Half := bytes.foldl crcByte 0xFFFF

/-- `CRC_RX_OK` of R171: the last two bytes are the `le16` of the CRC of the bytes before them. -/
def crcOkDefault (frame : List Byte) : Bool :=
  le16 (crcDefault (frame.take (frame.length - 2))) = frame.drop (frame.length - 2)

/-- R175 holds of the default (R171, R174). -/
theorem crcDefault_round_trip (g : List Byte) : crcOkDefault (g ++ le16 (crcDefault g)) = true := by
  simp [crcOkDefault, le16]

/-- The default CRC with the sample family codes 0xF2 and 0xF3 of 95_test_vectors. These are arguments
for tests and the proof that parameters exist; the machine does not run with them. -/
def sampleParams : Params where
  fam2Code := 0xF2
  fam3Code := 0xF3
  protocolVersion := 0x01
  sensorTypeDefault := 0x00
  crc16Tx := crcDefault
  crcRxOk := crcOkDefault
  fam2_ne_fam1 := by decide
  fam3_ne_fam1 := by decide
  fam2_ne_fam3 := by decide
  round_trip := fun g _ _ => crcDefault_round_trip g

/-- The OPEN parameters the machine runs with (R8): open, known only by their laws (assumption 4). -/
def params : Params := @Config.openParams ⟨sampleParams⟩

end Sys2Proof.Machine
end

