-- ==== Sys2Proof/Machine/State.lean ====
section
/-! DEFINITION. The state of the block (10_state), its inputs (00_scope R10) and its state after reset (70_reset_and_hazards R340). -/

namespace Sys2Proof.Machine

/-- An input of the block (R10); one is taken per step. -/
inductive Input where
  /-- `Cmd(w)`: the host writes `w` to `CMD`. -/
  | cmd (w : Word)
  /-- The CP peer raises the clock line. -/
  | clkRise
  /-- The CP peer lowers the clock line. -/
  | clkFall
  /-- The CP peer presents `v` on the data line. -/
  | datSet (v : Bool)
  /-- The out-of-band wake line is asserted. -/
  | wake
  /-- Sensor `ch` presents `v` on its line. -/
  | rxSet (ch : Channel) (v : Bool)
  /-- The timer's warm-up delay is over. -/
  | delayDone
  /-- The timer's bit sampling tick. -/
  | bitTick
  /-- The timer rolls over. -/
  | rollover
  | reset
deriving DecidableEq, Repr

/-- One value per sensor channel. -/
structure PerChannel (α : Type) where
  c0 : α
  c1 : α
  c2 : α
  c3 : α
deriving DecidableEq, Repr

/-- The cells of a buffer that do not hold 0x00, by rising index (R50–R53). -/
abbrev Memory := List Host.Cell

/-- The causes of a fault: exactly one (R312, I7). -/
inductive FaultCause where
  | rxOverrun
deriving DecidableEq, Repr

/-- The fields of `STATUS` (R34; assumption 13, DEDUCED). -/
structure Status where
  active : Bool
  busyReject : Bool
  illegal : Bool
  parityErr : Bool
  fault : Bool
  /-- `FAULT_CAUSE`; `none` is code 0. -/
  faultCause : Option FaultCause
  lastOpc : Byte
deriving DecidableEq, Repr

/-- Line levels and output drives (R40). -/
structure Lines where
  clkLvl : Bool
  datPeer : Bool
  cpOe : Bool
  cpOut : Bool
  rxLvl : PerChannel Bool
  exc : PerChannel Bool
deriving DecidableEq, Repr

/-- `CPS` (R45). -/
inductive CpState where
  | idle | ws1 | ws2 | sync | xfer
deriving DecidableEq, Repr

/-- `CP_OP` (R46). -/
inductive CpOp where
  | none | waitstart | sendbyte | recvbyte | waitmsg | sendmsg
deriving DecidableEq, Repr

/-- `CP_DIR` (R46). -/
inductive CpDir where
  | tx | rx
deriving DecidableEq, Repr

/-- CP-engine state (R45–R48). -/
structure CpEngine where
  cps : CpState
  op : CpOp
  dir : CpDir
  /-- `CP_CYC`, 1 to 10. -/
  cyc : BitVec 4
  shift : Byte
  par : Bool
  pb : Bool
  mis : Bool
  ack : Bool
  /-- `CP_LEN` -/
  len : BitVec 7
  /-- `CP_TXI` -/
  txi : BitVec 7
  /-- `CP_FAIL` -/
  fail : BitVec 3
deriving DecidableEq, Repr

/-- `STS` (R55, R210). -/
inductive StmState where
  | idle | exciting | armed | sampling
deriving DecidableEq, Repr

/-- `STM_OP` (R55). -/
inductive StmOp where
  | none | measure | typeprobe
deriving DecidableEq, Repr

/-- STM-engine state (R55). -/
structure StmEngine where
  sts : StmState
  op : StmOp
  ch : Channel
  nmax : BitVec 4
  tocnt : BitVec 4
  k : BitVec 4
  shift : Byte
  lastv : Bool
  lastb : Byte
  edgeEn : Bool
deriving DecidableEq, Repr

/-- Everything the block holds (R30), and the inputs its environment has still to deliver. -/
structure State where
  /-- R33 -/
  result : Word
  /-- R34 -/
  status : Status
  /-- R40 -/
  lines : Lines
  /-- R45–R48 -/
  cp : CpEngine
  /-- R55 -/
  stm : StmEngine
  /-- R50 -/
  rxBuf : Memory
  rxIdx : BitVec 7
  /-- R51 -/
  txBuf : Memory
  /-- R52 -/
  outBuf : Memory
  /-- R53 -/
  stmBuf : Memory
  stmIdx : BitVec 5
  /-- R60, two's complement -/
  temp : Word
  soil : Word
  /-- R61 -/
  stype : PerChannel Byte
  /-- The model's own field (assumption 1): the inputs still to come, the next one first (R10, R306). -/
  inbox : List Input
deriving DecidableEq, Repr

/-- Why a step stops the machine. Both are raised only in states that no run reaches (Safety's `Inv` rules them out). -/
inductive Fault where
  /-- Raised by an engine's access to index `idx` of `buf` outside the buffer, which R71 says is never made (assumption 3, DESIGN CHOICE). Safe: the model stops. -/
  | bufferIndex (buf : BufId) (idx : Nat)
  /-- Raised at the end of a byte transfer whose `CP_OP` is none of those R129 and R146 allow (assumption 3, DESIGN CHOICE). Safe: the model stops. -/
  | noOwner
deriving DecidableEq, Repr

/-- Why an instruction has no meaning here. -/
inductive Refusal where
  /-- Raised by no arm: every instruction has its meaning. Safe. -/
  | notModelled (mnemonic : String)
deriving DecidableEq, Repr

/-- A step's outcome. -/
abbrev Result := Host.Outcome State Fault Refusal

/-- `STATUS` after reset (R34, R340). -/
def Status.reset : Status :=
  { active := false, busyReject := false, illegal := false, parityErr := false,
    fault := false, faultCause := none, lastOpc := 0x00 }

/-- The lines after reset (R40, R340). -/
def Lines.reset : Lines :=
  { clkLvl := true, datPeer := true, cpOe := false, cpOut := true,
    rxLvl := ⟨true, true, true, true⟩, exc := ⟨false, false, false, false⟩ }

/-- The CP engine after reset (R45–R48, R340). -/
def CpEngine.reset : CpEngine :=
  { cps := .idle, op := .none, dir := .rx, cyc := 1, shift := 0x00, par := false, pb := false,
    mis := false, ack := false, len := 0, txi := 0, fail := 0 }

/-- The STM engine after reset (R55, R340). -/
def StmEngine.reset : StmEngine :=
  { sts := .idle, op := .none, ch := .c0, nmax := 0, tocnt := 0, k := 9, shift := 0x00,
    lastv := false, lastb := 0x00, edgeEn := false }

/-- The machine after `Reset` (R68, R340); no input is waiting (assumption 1). -/
def State.reset : State :=
  { result := 0x00000000
    status := Status.reset
    lines := Lines.reset
    cp := CpEngine.reset
    stm := StmEngine.reset
    rxBuf := []
    rxIdx := 0
    txBuf := []
    outBuf := []
    stmBuf := []
    stmIdx := 0
    temp := 0
    soil := 0
    stype := ⟨params.sensorTypeDefault, params.sensorTypeDefault, params.sensorTypeDefault, params.sensorTypeDefault⟩
    inbox := [] }

end Sys2Proof.Machine
end

