-- ==== Sys2Proof/Machine/Memory.lean ====
section
/-! DEFINITION. Buffer contents as cells in one canonical form (20_memory R70, R77; 10_state R50–R53). -/

namespace Sys2Proof.Machine

/-- What an index nothing has written reads as: the reset contents (R50–R53) (assumption 10, UNVERIFIED of the board). -/
abbrev unwritten : Byte := 0x00

/-- The byte at index `a`. -/
def Memory.get : Memory → Nat → Byte
  | [], _ => unwritten
  | (x, v) :: rest, a => if x = a then v else Memory.get rest a

/-- The cell of a byte, left out when the byte is what an unlisted index reads as. -/
def cellOf (a : Nat) (b : Byte) : Memory := if b = unwritten then [] else [(a, b)]

/-- Writes `b` at index `a`, keeping the canonical form. -/
def Memory.set : Memory → Nat → Byte → Memory
  | [], a, b => cellOf a b
  | (x, v) :: rest, a, b =>
    if a < x then cellOf a b ++ (x, v) :: rest
    else if a = x then cellOf a b ++ rest
    else (x, v) :: Memory.set rest a b

/-- Writes the bytes `bs` from index `a` on. -/
def Memory.setList (m : Memory) : Nat → List Byte → Memory
  | _, [] => m
  | a, b :: bs => Memory.setList (m.set a b) (a + 1) bs

/-- The `n` bytes from index `a` on: `BUF[a..a+n−1]` (R13). -/
def Memory.slice (m : Memory) (a n : Nat) : List Byte := (List.range' a n).map m.get

/-- The canonical form: indices strictly rising and below the capacity, and no cell with the byte an
unlisted index reads as. -/
abbrev Memory.wf (cap : Nat) (m : Memory) : Prop :=
  m.Pairwise (fun x y => x.1 < y.1) ∧ ∀ c ∈ m, c.1 < cap ∧ c.2 ≠ unwritten

/-- Reads one channel's value. -/
def PerChannel.get {α : Type} (p : PerChannel α) : Channel → α
  | .c0 => p.c0
  | .c1 => p.c1
  | .c2 => p.c2
  | .c3 => p.c3

/-- Writes one channel's value. -/
def PerChannel.set {α : Type} (p : PerChannel α) (ch : Channel) (v : α) : PerChannel α :=
  match ch with
  | .c0 => { p with c0 := v }
  | .c1 => { p with c1 := v }
  | .c2 => { p with c2 := v }
  | .c3 => { p with c3 := v }

/-- The same value for every channel. -/
def PerChannel.all {α : Type} (v : α) : PerChannel α := ⟨v, v, v, v⟩

end Sys2Proof.Machine
end

