-- ==== Sys2Proof/Machine/Flags.lean ====
section
/-! DEFINITION. Parity, the packed words the host reads, and the predicates the spec derives from the state. -/

namespace Sys2Proof.Machine

/-- Even parity: the exclusive-or of the eight data bits (00_scope R27, 40_cp_link R125). -/
def parity (v : Byte) : Bool :=
  v.getLsbD 0 ^^ v.getLsbD 1 ^^ v.getLsbD 2 ^^ v.getLsbD 3 ^^ v.getLsbD 4 ^^ v.getLsbD 5 ^^ v.getLsbD 6 ^^ v.getLsbD 7

/-- The code of a fault cause in `FAULT_CAUSE` (R34, R312). -/
def FaultCause.code : FaultCause → BitVec 3
  | .rxOverrun => 1

/-- `FAULT_CAUSE`, bits 7:5 of `STATUS` (R34). -/
def Status.causeField (st : Status) : BitVec 3 :=
  match st.faultCause with
  | none => 0
  | some c => c.code

/-- `STATUS` as the host reads it (R34): bits 31:16 read as 0. -/
def Status.toWord (st : Status) : Word :=
  (0 : BitVec 16) ++ st.lastOpc ++ st.causeField ++ BitVec.ofBool st.fault ++ BitVec.ofBool st.parityErr ++
    BitVec.ofBool st.illegal ++ BitVec.ofBool st.busyReject ++ BitVec.ofBool st.active

/-- Four channels' bits, channel 0 lowest (R286). -/
def PerChannel.bits (p : PerChannel Bool) : BitVec 4 :=
  BitVec.ofBool p.c3 ++ BitVec.ofBool p.c2 ++ BitVec.ofBool p.c1 ++ BitVec.ofBool p.c0

/-- `DAT_LINE`: the block's level while it drives, else the peer's (R40; assumption 8, UNVERIFIED). -/
def Lines.datLine (l : Lines) : Bool := if l.cpOe then l.cpOut else l.datPeer

/-- REG.READ 0x0A, `lines` (R286). -/
def Lines.toWord (l : Lines) : Word :=
  (0 : BitVec 20) ++ l.rxLvl.bits ++ l.exc.bits ++ BitVec.ofBool l.cpOut ++ BitVec.ofBool l.cpOe ++
    BitVec.ofBool l.datLine ++ BitVec.ofBool l.clkLvl

/-- REG.READ 0x09, `stm_last` (R286). -/
def StmEngine.lastWord (e : StmEngine) : Word := (0 : BitVec 23) ++ BitVec.ofBool e.lastv ++ e.lastb

/-- A byte transfer is in progress or waiting for its first clock fall (R49). -/
def CpEngine.transferring (e : CpEngine) : Bool :=
  match e.cps with
  | .idle => false
  | .ws1 => false
  | .ws2 => false
  | .sync => true
  | .xfer => true

/-- `TX_BUSY` (R49). -/
def CpEngine.txBusy (e : CpEngine) : Bool := e.transferring && e.dir = .tx

/-- `RX_BUSY` (R49). -/
def CpEngine.rxBusy (e : CpEngine) : Bool := e.transferring && e.dir = .rx

/-- The timer's roles (R56). -/
inductive TimerRole where
  | delay | bitSampling | timeout
deriving DecidableEq, Repr

/-- The role the timer has: at most one, derived from `STS` (R56). -/
def StmEngine.timerRole (e : StmEngine) : Option TimerRole :=
  match e.sts with
  | .idle => none
  | .exciting => some .delay
  | .sampling => some .bitSampling
  | .armed => some .timeout

/-- The registers of the host's port (10_state R32–R34). -/
inductive HostReg where
  | cmd | result | status
deriving DecidableEq, Repr

/-- A host read through the port: allowed in every state, no step, no effect (R32, R287). -/
def State.hostRead (s : State) : HostReg → Word
  | .cmd => 0x00000000
  | .result => s.result
  | .status => s.status.toWord

end Sys2Proof.Machine
end

