-- ==== Sys2Proof/Machine/Ops.lean ====
section
/-! DEFINITION. The operations every command and engine shares: buffers, acceptance and rejection, `finish`, the fault. -/

namespace Sys2Proof.Machine

/-- `BUFFER(buf)` (44_host_access R280). -/
def State.buf (s : State) : BufId → Memory
  | .rx => s.rxBuf
  | .tx => s.txBuf
  | .out => s.outBuf
  | .stm => s.stmBuf

/-- Replaces a buffer's contents. -/
def State.setBuf (s : State) (buf : BufId) (m : Memory) : State :=
  match buf with
  | .rx => { s with rxBuf := m }
  | .tx => { s with txBuf := m }
  | .out => { s with outBuf := m }
  | .stm => { s with stmBuf := m }

/-- `BUF[i]` (R13): reads a byte and goes on with it. No rule names an index outside the buffer (R71). -/
def readByte (buf : BufId) (i : Nat) (s : State) (k : Byte → Result) : Result :=
  if i < buf.cap then k ((s.buf buf).get i) else .fault (.bufferIndex buf i)

/-- `BUF[i] <- v` (R13), then goes on. No rule names an index outside the buffer (R71). -/
def writeByte (buf : BufId) (i : Nat) (v : Byte) (s : State) (k : State → Result) : Result :=
  if i < buf.cap then k (s.setBuf buf ((s.buf buf).set i v)) else .fault (.bufferIndex buf i)

/-- `reject(BUSY)` (60_exceptions R302). -/
def rejectBusy (s : State) : State :=
  { s with status := { s.status with busyReject := true, illegal := false } }

/-- `reject(ILLEGAL)` (60_exceptions R303). -/
def rejectIllegal (s : State) : State :=
  { s with status := { s.status with illegal := true, busyReject := false } }

/-- The status writes of `accept(w)` (60_exceptions R301). -/
def accept (opc : Byte) (s : State) : State :=
  { s with status := { s.status with busyReject := false, illegal := false, lastOpc := opc } }

/-- A `Cmd` input in the order of 60_exceptions R300: ignored in a fault, busy, illegal, accepted. -/
def onCommand (legal : Bool) (opc : Byte) (body : State → Result) (s : State) : Result :=
  if s.status.fault then .next s
  else if s.status.active then .next (rejectBusy s)
  else if legal then body (accept opc s)
  else .next (rejectIllegal s)

/-- `STATUS.ACTIVE <- 1`, for a command that waits for events (R301). -/
def activate (s : State) : State := { s with status := { s.status with active := true } }

/-- `finish(code)` of a command with no engine of its own: `RESULT` and `ACTIVE` (00_scope R13). -/
def finish (code : Word) (s : State) : State :=
  { s with result := code, status := { s.status with active := false } }

/-- `finish(code)` of a CP-link command: the engine returns to its idle state (R13, R45, R46; assumption 5). -/
def finishCp (code : Word) (s : State) : State :=
  finish code { s with cp := { s.cp with cps := .idle, op := .none } }

/-- `raise Fault(cause)` (60_exceptions R312): the block's one exception, taken as a next state (assumption 2).
It is left only by `Reset` (R313, R340). -/
def raiseFault (cause : FaultCause) (s : State) : State :=
  { s with
    status := { s.status with fault := true, faultCause := some cause, active := false }
    lines := { s.lines with cpOe := false, exc := PerChannel.all false }
    cp := { s.cp with cps := .idle, op := .none }
    stm := { s.stm with sts := .idle, op := .none, edgeEn := false } }

/-- The return from a fault and from everything else: the `Reset` input (70_reset_and_hazards R340). The
inputs still to come are the environment's, so they stay. -/
def doReset (s : State) : State := { State.reset with inbox := s.inbox }

/-- An event an engine might consume: none is while `FAULT` is 1 (R307, R313). -/
def onEvent (act : State → Result) (s : State) : Result :=
  if s.status.fault then .next s else act s

end Sys2Proof.Machine
end

