-- ==== Sys2Proof/Machine/Operands.lean ====
section
/-! DEFINITION. The register operand of REG.READ (44_host_access R286). -/

namespace Sys2Proof.Machine

/-- `value(reg)` of R286's table. -/
def regValue (s : State) : RegId → Word
  | .rxIdx => zext32 s.rxIdx
  | .stmIdx => zext32 s.stmIdx
  | .temp => s.temp
  | .soil => s.soil
  | .stype ch => zext32 (s.stype.get ch)
  | .tocnt => zext32 s.stm.tocnt
  | .stmLast => s.stm.lastWord
  | .lines => s.lines.toWord
  | .cpFail => zext32 s.cp.fail

end Sys2Proof.Machine
end

