-- ==== Sys2Proof/Machine/CpLink.lean ====
section
/-! DEFINITION. The CP-link byte engine (40_cp_link) and its commands CP.WAITSTART, CP.SENDBYTE and CP.RECVBYTE. -/

namespace Sys2Proof.Machine

/-- `start_cycle1()` (R125). -/
def startCycle1 (s : State) : State :=
  match s.cp.dir with
  | .tx => { s with
      cp := { s.cp with cps := .xfer, cyc := 1 }
      lines := { s.lines with cpOe := true, cpOut := s.cp.shift.getLsbD 0 } }
  | .rx => { s with
      cp := { s.cp with cps := .xfer, cyc := 1 }
      lines := { s.lines with cpOe := false } }

/-- The clock alignment that ends `begin_byte` (R125, R126). -/
def alignByte (s : State) : State :=
  if s.lines.clkLvl then { s with cp := { s.cp with cps := .sync } } else startCycle1 s

/-- `begin_byte(TX, v)` (R125). -/
def beginTx (v : Byte) (s : State) : State :=
  alignByte { s with cp := { s.cp with dir := .tx, ack := false, shift := v, par := parity v } }

/-- `begin_byte(RX, _)` (R125). -/
def beginRx (s : State) : State :=
  alignByte { s with cp := { s.cp with
    dir := .rx, ack := false, shift := 0x00, par := false, pb := false, mis := false } }

/-- `append(b)` (R145), then the rest of the step unless it faults. -/
def appendByte (b : Byte) (s : State) (k : State → Result) : Result :=
  if s.rxIdx = 64 then .next (raiseFault .rxOverrun s)
  else writeByte .rx s.rxIdx.toNat b s (fun t => k { t with rxIdx := t.rxIdx + 1 })

/-- Sends `TX_BUF[CP_TXI]`, the next byte or the same one again (R185, R187). -/
def sendCurrent (s : State) : Result :=
  readByte .tx s.cp.txi.toNat s (fun b => .next (beginTx b s))

/-- `byte_done_tx()` of a CP.SENDBYTE (R129, R130). -/
def sendbyteDone (s : State) : Result := .next (finishCp (if s.cp.ack then 2 else 0) s)

/-- `byte_done_tx()` of a CP.SENDMSG (41_framer R187). -/
def sendmsgDone (s : State) : Result :=
  if s.cp.ack then
    let t := { s with cp := { s.cp with fail := s.cp.fail + 1 } }
    if t.cp.fail = Config.txFailMax then .next (finishCp 0 t) else sendCurrent t
  else
    let t := { s with cp := { s.cp with txi := s.cp.txi + 1 } }
    if t.cp.txi = t.cp.len then .next (finishCp 0 t) else sendCurrent t

/-- `byte_done_tx()` (R129). -/
def byteDoneTx (s : State) : Result :=
  match s.cp.op with
  | .sendbyte => sendbyteDone s
  | .sendmsg => sendmsgDone s
  | .none => .fault .noOwner
  | .waitstart => .fault .noOwner
  | .recvbyte => .fault .noOwner
  | .waitmsg => .fault .noOwner

/-- `byte_done_rx()` of a CP.WAITMSG (41_framer R182): `L` is `RX_BUF[1]`. -/
def waitmsgDone (s : State) : Result :=
  readByte .rx 1 s fun len =>
    if s.rxIdx = 4 && !legalLen len then .next (finishCp 1 { s with rxIdx := 0 })
    else if 4 ≤ s.rxIdx.toNat && s.rxIdx.toNat = len.toNat then .next (finishCp 0 s)
    else .next (beginRx s)

/-- `byte_done_rx()` (R146). -/
def byteDoneRx (s : State) : Result :=
  match s.cp.op with
  | .recvbyte => .next (finishCp 0 s)
  | .waitmsg => waitmsgDone s
  | .none => .fault .noOwner
  | .waitstart => .fault .noOwner
  | .sendbyte => .fault .noOwner
  | .sendmsg => .fault .noOwner

/-- `ClkRise` in a transmit: the acknowledgment at `R_10` (R127, R128). -/
def txRise (s : State) : State :=
  if s.cp.cyc = 10 then { s with cp := { s.cp with ack := s.lines.datLine } } else s

/-- `CP_CYC <- c + 1` (R127, R141). -/
def nextCycle (s : State) : State := { s with cp := { s.cp with cyc := s.cp.cyc + 1 } }

/-- `ClkFall` in a transmit (R127): the next data bit, the parity bit, the release, the end (counters out of range: assumption 11, DESIGN CHOICE). -/
def txFall (s : State) : Result :=
  let c := s.cp.cyc.toNat
  if c ≤ 7 then .next (nextCycle { s with lines := { s.lines with cpOut := s.cp.shift.getLsbD c } })
  else if c = 8 then .next (nextCycle { s with lines := { s.lines with cpOut := s.cp.par } })
  else if c = 9 then .next (nextCycle { s with lines := { s.lines with cpOe := false } })
  else if c = 10 then byteDoneTx s
  else .next (nextCycle s)

/-- A data bit of a receive, most significant first (R141). -/
def rxDataBit (d : Bool) (s : State) : State :=
  { s with cp := { s.cp with shift := (s.cp.shift <<< 1) ||| (BitVec.ofBool d).setWidth 8, par := s.cp.par ^^ d } }

/-- The parity bit of a receive: a mismatch sets the sticky `PARITY_ERR` (R141, R142). -/
def rxParityBit (d : Bool) (s : State) : State :=
  let mis := d ^^ s.cp.par
  { s with
    cp := { s.cp with pb := d, mis := mis }
    status := { s.status with parityErr := s.status.parityErr || mis } }

/-- `ClkRise` in a receive (R141). -/
def rxRise (s : State) : State :=
  let d := s.lines.datLine
  if s.cp.cyc.toNat ≤ 8 then rxDataBit d s
  else if s.cp.cyc = 9 then rxParityBit d s
  else s

/-- `ClkFall` in a receive (R141): the ACK or NACK at `F_9`, the append and the end at `F_10` (counters out of range: assumption 11, DESIGN CHOICE). -/
def rxFall (s : State) : Result :=
  if s.cp.cyc = 9 then .next (nextCycle { s with lines := { s.lines with cpOe := true, cpOut := s.cp.mis } })
  else if s.cp.cyc = 10 then
    appendByte s.cp.shift { s with lines := { s.lines with cpOe := false } } byteDoneRx
  else .next (nextCycle s)

/-- `ClkRise` in a byte transfer (R127, R141). -/
def xferRise (s : State) : State :=
  match s.cp.dir with
  | .tx => txRise s
  | .rx => rxRise s

/-- `ClkFall` in a byte transfer (R127, R141). -/
def xferFall (s : State) : Result :=
  match s.cp.dir with
  | .tx => txFall s
  | .rx => rxFall s

/-- A clock rise, by the engine's state (R307): consumed in `CP_XFER` only. -/
def cpClkRise (s : State) : Result :=
  match s.cp.cps with
  | .xfer => .next (xferRise s)
  | .idle => .next s
  | .ws1 => .next s
  | .ws2 => .next s
  | .sync => .next s

/-- A clock fall, by the engine's state (R120, R126, R127, R141, R307). -/
def cpClkFall (s : State) : Result :=
  match s.cp.cps with
  | .ws2 => .next (finishCp 1 s)
  | .sync => .next (startCycle1 s)
  | .xfer => xferFall s
  | .idle => .next s
  | .ws1 => .next s

/-- A fall of the peer's data level: with the clock high it qualifies a start condition (R41, R112, R120). -/
def cpDatFall (s : State) : Result :=
  match s.cp.cps with
  | .ws1 =>
    if s.lines.clkLvl && !s.lines.cpOe then .next { s with cp := { s.cp with cps := .ws2 } } else .next s
  | .idle => .next s
  | .ws2 => .next s
  | .sync => .next s
  | .xfer => .next s

/-- `Wake`, consumed in `CP_WS1` only (R120, R361). -/
def cpWake (s : State) : Result :=
  match s.cp.cps with
  | .ws1 => .next (finishCp 0 s)
  | .idle => .next s
  | .ws2 => .next s
  | .sync => .next s
  | .xfer => .next s

/-- What CP.WAITSTART does on acceptance (R120). -/
def startWaitstart (s : State) : State :=
  activate { s with
    cp := { s.cp with op := .waitstart, cps := .ws1 }
    lines := { s.lines with cpOe := false } }

/-- CP.WAITSTART (R120). -/
def execCpWaitstart (s : State) : Result :=
  onCommand true 0x01 (fun t => .next (startWaitstart t)) s

/-- CP.SENDBYTE `v` (R130). -/
def execCpSendbyte (v : Byte) (s : State) : Result :=
  onCommand true 0x02 (fun t => .next (beginTx v (activate { t with cp := { t.cp with op := .sendbyte } }))) s

/-- CP.RECVBYTE (R140). -/
def execCpRecvbyte (s : State) : Result :=
  onCommand true 0x03 (fun t => .next (beginRx (activate { t with cp := { t.cp with op := .recvbyte } }))) s

end Sys2Proof.Machine
end

