-- ==== Sys2Proof/Machine/Framer.lean ====
section
/-! DEFINITION. The message framer (41_framer): CP.WAITMSG, CP.SENDMSG, CP.GRABMSG and CRC.RUN. -/

namespace Sys2Proof.Machine

/-- `crc_send(BUF, L)` (R174): the last two bytes become the CRC of the bytes before them, low byte first (R172, R173). -/
def crcSend (P : Params) (m : Memory) (len : Nat) : Memory :=
  m.setList (len - 2) (le16 (P.crc16Tx (m.slice 0 (len - 2))))

/-- `crc_recv(BUF, L)` (R174). -/
def crcRecv (P : Params) (m : Memory) (len : Nat) : Bool := P.crcRxOk (m.slice 0 len)

/-- What CP.WAITMSG does on acceptance (R180): a new frame starts at index 0. -/
def startWaitmsg (s : State) : State :=
  beginRx { activate { s with cp := { s.cp with op := .waitmsg } } with rxIdx := 0 }

/-- CP.WAITMSG (R180). -/
def execCpWaitmsg (s : State) : Result :=
  onCommand true 0x04 (fun t => .next (startWaitmsg t)) s

/-- What CP.SENDMSG does on acceptance (R185). -/
def startSendmsg (P : Params) (len : Byte) (s : State) : Result :=
  sendCurrent (activate { s with
    cp := { s.cp with op := .sendmsg, len := len.setWidth 7, txi := 0, fail := 0 }
    txBuf := crcSend P s.txBuf len.toNat })

/-- CP.SENDMSG `L` (R185). -/
def execCpSendmsg (len : Byte) (s : State) : Result :=
  onCommand (legalLen len) 0x05 (startSendmsg params len) s

/-- The checks and the copy of CP.GRABMSG, in the order of R190. -/
def grabmsg (P : Params) (s : State) : State :=
  let len := (s.rxBuf.get 1).toNat
  if s.rxIdx.toNat < Config.headerSize then finish 1 s
  else if Config.frameCap < len then finish 1 s
  else if s.rxIdx.toNat < len then finish 1 s
  else if len < Config.minLen then finish 2 s
  else if !crcRecv P s.rxBuf len then finish 2 s
  else finish 0 { s with outBuf := s.outBuf.setList 0 (s.rxBuf.slice 0 len), rxIdx := 0 }

/-- CP.GRABMSG (R190). -/
def execCpGrabmsg (s : State) : Result :=
  onCommand true 0x06 (fun t => .next (grabmsg params t)) s

/-- CRC.RUN in its two modes (R195, R196). -/
def crcRun (P : Params) (mode : CrcMode) (len : Byte) (s : State) : State :=
  match mode with
  | .send => finish 1 { s with txBuf := crcSend P s.txBuf len.toNat }
  | .recv => finish (if crcRecv P s.rxBuf len.toNat then 1 else 0) s

/-- CRC.RUN `mode, L` (R195). -/
def execCrcRun (mode : CrcMode) (len : Byte) (s : State) : Result :=
  onCommand (legalLen len) 0x07 (fun t => .next (crcRun params mode len t)) s

end Sys2Proof.Machine
end

