-- ==== Sys2Proof/Machine/HostAccess.lean ====
section
/-! DEFINITION. The host access commands BUF.WRITE, BUF.READ and REG.READ (44_host_access). -/

namespace Sys2Proof.Machine

/-- BUF.WRITE `buf, idx, v` (R280). -/
def execBufWrite (buf : BufId) (idx v : Byte) (s : State) : Result :=
  onCommand (legalIdx buf idx) 0x20
    (fun t => writeByte buf idx.toNat v t fun u => .next (finish 0 u)) s

/-- BUF.READ `buf, idx` (R283). -/
def execBufRead (buf : BufId) (idx : Byte) (s : State) : Result :=
  onCommand (legalIdx buf idx) 0x21
    (fun t => readByte buf idx.toNat t fun b => .next (finish (zext32 b) t)) s

/-- REG.READ `reg` (R286). -/
def execRegRead (reg : RegId) (s : State) : Result :=
  onCommand true 0x22 (fun t => .next (finish (regValue t reg) t)) s

end Sys2Proof.Machine
end

