-- ==== Sys2Proof/Machine/Parser.lean ====
section
/-! DEFINITION. The sensor reply's validator and parser (43_stm_parser): STM.CHECKSUM and STM.PARSE. -/

namespace Sys2Proof.Machine

/-- `find_cr()`: the least index in 0..19 that holds 0x0D (R252). -/
def findCr (m : Memory) : Option Nat :=
  (List.range Config.stmCap).find? fun i => m.get i = Config.cr

/-- The sum of the bytes at indices 0 to `t + 1` (R253). -/
def checksumSum (m : Memory) (t : Nat) : Nat := ((m.slice 0 (t + 2)).map BitVec.toNat).sum

/-- `expected` of R253. -/
def expectedChecksum (m : Memory) (t : Nat) : Nat := checksumSum m t % 64 + 32

/-- The checksum passes: `checksum() = 0` (R255). -/
def checksumPasses (m : Memory) : Bool :=
  match findCr m with
  | none => false
  | some t => t ≤ 17 && (m.get (t + 2)).toNat = expectedChecksum m t

/-- `checksum()` of R255: 0 is pass, 1 is fail. -/
def checksum (m : Memory) : Word := if checksumPasses m then 0 else 1

/-- The sensor families (R258). -/
inductive Family where
  | fam1 | fam2 | fam3
deriving DecidableEq, Repr

/-- `family(d)` (R258); `none` is unrecognized. -/
def family (P : Params) (d : Byte) : Option Family :=
  if d = Config.fam1Code then some .fam1
  else if d = P.fam2Code then some .fam2
  else if d = P.fam3Code then some .fam3
  else none

/-- Family 1 alone has sign and decimal-point handling (R258). -/
def Family.signed : Family → Bool
  | .fam1 => true
  | .fam2 => false
  | .fam3 => false

/-- How a field ended (R259). -/
inductive FieldEnd where
  | start | space | minus
deriving DecidableEq, Repr

/-- What `scan_field` returns (R259). -/
structure Field where
  magnitude : Word
  /-- The index of the byte that ended the field. -/
  stop : Nat
  ended : FieldEnd
deriving DecidableEq, Repr

/-- What a byte of a field contributes: `u32(c − 0x30)` times its weight (R261; assumption 7, UNVERIFIED). -/
def digit (c : Byte) (weight : Word) : Word := (zext32 c - 0x30) * weight

/-- The loop of `scan_field` with its accumulator and weight (R259): check the index, then decrement. -/
def scanFrom (m : Memory) (signed : Bool) : Nat → Word → Word → Field
  | 0, acc, _ => ⟨acc, 0, .start⟩
  | p + 1, acc, weight =>
    let c := m.get p
    if c = Config.sp then ⟨acc, p, .space⟩
    else if signed && c = Config.minus then ⟨acc, p, .minus⟩
    else if signed && c = Config.dot then scanFrom m signed p acc weight
    else scanFrom m signed p (acc + digit c weight) (weight * 10)

/-- `scan_field(p, signed)` (R259). -/
def scanField (m : Memory) (signed : Bool) (p : Nat) : Field := scanFrom m signed p 0 1

/-- The value of a field: negated when a minus ended it (R260, R262). -/
def Field.value (f : Field) : Word :=
  match f.ended with
  | .minus => 0 - f.magnitude
  | .start => f.magnitude
  | .space => f.magnitude

/-- Where field B's scan starts: past field A, and past a space just left of its minus (R260, R262). -/
def fieldBStart (m : Memory) (a : Field) : Nat :=
  if a.ended = .minus && a.stop ≠ 0 && m.get (a.stop - 1) = Config.sp then a.stop - 1 else a.stop

/-- Fields A and B of a reply with its CR at `t`: the new `SOIL` and `TEMP` (R258, R262). -/
def parseFields (m : Memory) (signed : Bool) (t : Nat) : Word × Word :=
  let a := scanField m signed t
  (a.value, (scanField m signed (fieldBStart m a)).value)

/-- `parse()` (R262). -/
def parse (P : Params) (s : State) : State :=
  match findCr s.stmBuf with
  | none => s
  | some t =>
    if 18 < t then s
    else
      match family P (s.stmBuf.get (t + 1)) with
      | none => s
      | some f =>
        let r := parseFields s.stmBuf f.signed t
        { s with soil := r.1, temp := r.2 }

/-- STM.CHECKSUM (R255). -/
def execStmChecksum (s : State) : Result :=
  onCommand true 0x12 (fun t => .next (finish (checksum t.stmBuf) t)) s

/-- STM.PARSE (R262). -/
def execStmParse (s : State) : Result :=
  onCommand true 0x13 (fun t => .next (finish 0 (parse params t))) s

end Sys2Proof.Machine
end

