-- ==== Sys2Proof/Machine/Stm.lean ====
section
/-! DEFINITION. The STM sensor-channel receiver (42_stm) and its commands STM.MEASURE and STM.TYPEPROBE. -/

namespace Sys2Proof.Machine

/-- The iteration bound of an STM command (R215). -/
def StmOp.iterations : StmOp → BitVec 4
  | .measure => Config.measIter
  | .typeprobe => Config.probeIter
  | .none => Config.probeIter

/-- `start_stm(op, ch)` (R215): the buffer is cleared (R227) and the channel powered. -/
def startStm (op : StmOp) (ch : Channel) (s : State) : State :=
  activate { s with
    stm := { s.stm with
      op := op, ch := ch, nmax := op.iterations, lastv := false, lastb := 0x00, tocnt := 0,
      edgeEn := false, sts := .exciting }
    stmBuf := []
    stmIdx := 0
    lines := { s.lines with exc := s.lines.exc.set ch true } }

/-- The power and the edge interrupt go off (R228). -/
def powerOff (s : State) : State :=
  { s with
    lines := { s.lines with exc := s.lines.exc.set s.stm.ch false }
    stm := { s.stm with edgeEn := false } }

/-- The registry write of STM.TYPEPROBE: the byte after the first CR (R228, R236; without one nothing is written, assumption 11). -/
def probeType (s : State) : State :=
  match findCr s.stmBuf with
  | none => s
  | some t => { s with stype := s.stype.set s.stm.ch (s.stmBuf.get (t + 1)) }

/-- `STS <- STM_IDLE; STM_OP <- NONE; finish(code)` (R228). -/
def endStm (code : Word) (s : State) : State :=
  finish code { s with stm := { s.stm with sts := .idle, op := .none } }

/-- `finish_stm(timedOut)` (R228). -/
def finishStm (P : Params) (timedOut : Bool) (s : State) : State :=
  let t := powerOff s
  if timedOut then endStm 2 t
  else if !checksumPasses t.stmBuf then endStm 1 t
  else if t.stm.op = .measure then endStm 0 (parse P t)
  else endStm 0 (probeType t)

/-- `store(b)` (R226): the ring of 20 bytes; a long reply wraps (I17; assumption 9, UNVERIFIED). -/
def storeByte (b : Byte) (s : State) : Result :=
  writeByte .stm s.stmIdx.toNat b s fun t =>
    .next { t with
      stmIdx := if t.stmIdx.toNat + 1 = Config.stmCap then 0 else t.stmIdx + 1
      stm := { t.stm with lastv := true, lastb := b } }

/-- Writes bit `i` of a byte. -/
def setBit (v : Byte) (i : Nat) (b : Bool) : Byte :=
  if b then v ||| ((1 : Byte) <<< i) else v &&& ~~~((1 : Byte) <<< i)

/-- The end of a character: ready for the next one (R222). -/
def rearm (s : State) : State :=
  { s with stm := { s.stm with k := 9, sts := .armed, edgeEn := true } }

/-- `DelayDone` (R212, R216). -/
def stmDelayDone (s : State) : Result :=
  match s.stm.sts with
  | .exciting => .next { s with stm := { s.stm with sts := .armed, edgeEn := true, tocnt := 0 } }
  | .idle => .next s
  | .armed => .next s
  | .sampling => .next s

/-- A falling edge of `STM_RX[ch]`: a start bit if the channel is the selected one and the edge
interrupt is enabled (R211, R218). -/
def stmRxFall (ch : Channel) (s : State) : Result :=
  match s.stm.sts with
  | .armed =>
    if s.stm.edgeEn && ch = s.stm.ch then
      .next { s with stm := { s.stm with sts := .sampling, edgeEn := false, k := 9, shift := 0x00 } }
    else .next s
  | .idle => .next s
  | .exciting => .next s
  | .sampling => .next s

/-- A data bit, least significant first: bit `9 − STM_K` (R222; assumption 11, DESIGN CHOICE). -/
def stmDataBit (b : Bool) (s : State) : State :=
  { s with stm := { s.stm with shift := setBit s.stm.shift (9 - s.stm.k.toNat) b, k := s.stm.k - 1 } }

/-- `BitTick` (R212, R222). The stop bit's level is not looked at (I1; assumption 6, UNVERIFIED). -/
def stmBitTick (s : State) : Result :=
  match s.stm.sts with
  | .sampling =>
    if 2 ≤ s.stm.k.toNat then .next (stmDataBit (s.lines.rxLvl.get s.stm.ch) s)
    else storeByte s.stm.shift (rearm s)
  | .idle => .next s
  | .exciting => .next s
  | .armed => .next s

/-- One iteration of the bounded wait: the line feed is looked for before the timeout (R219). -/
def countRollover (P : Params) (s : State) : State :=
  let t := { s with stm := { s.stm with tocnt := s.stm.tocnt + 1 } }
  if t.stm.lastv && t.stm.lastb = Config.lf then finishStm P false t
  else if t.stm.tocnt = t.stm.nmax then finishStm P true t
  else t

/-- `Rollover` (R212, R219). -/
def stmRollover (P : Params) (s : State) : Result :=
  match s.stm.sts with
  | .armed => .next (countRollover P s)
  | .idle => .next s
  | .exciting => .next s
  | .sampling => .next s

/-- STM.MEASURE `ch` (R230). -/
def execStmMeasure (ch : Channel) (s : State) : Result :=
  onCommand true 0x10 (fun t => .next (startStm .measure ch t)) s

/-- STM.TYPEPROBE `ch` (R235). -/
def execStmTypeprobe (ch : Channel) (s : State) : Result :=
  onCommand true 0x11 (fun t => .next (startStm .typeprobe ch t)) s

end Sys2Proof.Machine
end

