-- ==== Sys2Proof/Machine/Dispatch.lean ====
section
/-! DEFINITION. The meaning of each command, by name. -/

namespace Sys2Proof.Machine

def exec (i : Instr) (s : State) : Host.Outcome State Fault Refusal :=
  match i with
  | .cpWaitstart => Sys2Proof.Machine.execCpWaitstart s
  | .cpSendbyte v => Sys2Proof.Machine.execCpSendbyte v s
  | .cpRecvbyte => Sys2Proof.Machine.execCpRecvbyte s
  | .cpWaitmsg => Sys2Proof.Machine.execCpWaitmsg s
  | .cpSendmsg len => Sys2Proof.Machine.execCpSendmsg len s
  | .cpGrabmsg => Sys2Proof.Machine.execCpGrabmsg s
  | .crcRun mode len => Sys2Proof.Machine.execCrcRun mode len s
  | .stmMeasure ch => Sys2Proof.Machine.execStmMeasure ch s
  | .stmTypeprobe ch => Sys2Proof.Machine.execStmTypeprobe ch s
  | .stmChecksum => Sys2Proof.Machine.execStmChecksum s
  | .stmParse => Sys2Proof.Machine.execStmParse s
  | .bufWrite buf idx v => Sys2Proof.Machine.execBufWrite buf idx v s
  | .bufRead buf idx => Sys2Proof.Machine.execBufRead buf idx s
  | .regRead reg => Sys2Proof.Machine.execRegRead reg s

end Sys2Proof.Machine
end

