-- ==== Sys2Proof/Machine/Inputs.lean ====
section
/-! DEFINITION. What one input does: the line bookkeeping of 10_state R41, then the engine that consumes it (60_exceptions R307). -/

namespace Sys2Proof.Machine

/-- A host write to `CMD` (60_exceptions R300). -/
def onCmd (w : Word) (s : State) : Result :=
  match decode w with
  | .ok i => exec i s
  | .error _ => onCommand false (fieldOpc w) (fun t => .next t) s

/-- `ClkRise`: an edge only if the clock was low (R41). -/
def onClkRise (s : State) : Result :=
  if s.lines.clkLvl then .next s
  else onEvent cpClkRise { s with lines := { s.lines with clkLvl := true } }

/-- `ClkFall`: an edge only if the clock was high (R41). -/
def onClkFall (s : State) : Result :=
  if s.lines.clkLvl then onEvent cpClkFall { s with lines := { s.lines with clkLvl := false } }
  else .next s

/-- `DatSet(v)`: an edge only if the level changes; the engine acts on a fall (R41). -/
def onDatSet (v : Bool) (s : State) : Result :=
  if s.lines.datPeer = v then .next s
  else
    let t := { s with lines := { s.lines with datPeer := v } }
    if v then .next t else onEvent cpDatFall t

/-- `RxSet(ch, v)`: an edge only if the level changes; the engine acts on a fall (R41). -/
def onRxSet (ch : Channel) (v : Bool) (s : State) : Result :=
  if s.lines.rxLvl.get ch = v then .next s
  else
    let t := { s with lines := { s.lines with rxLvl := s.lines.rxLvl.set ch v } }
    if v then .next t else onEvent (stmRxFall ch) t

/-- One input, taken (R10). -/
def takeInput (i : Input) (s : State) : Result :=
  match i with
  | .cmd w => onCmd w s
  | .clkRise => onClkRise s
  | .clkFall => onClkFall s
  | .datSet v => onDatSet v s
  | .wake => onEvent cpWake s
  | .rxSet ch v => onRxSet ch v s
  | .delayDone => onEvent stmDelayDone s
  | .bitTick => onEvent stmBitTick s
  | .rollover => onEvent (stmRollover params) s
  | .reset => .next (doReset s)

/-- The environment's next input is taken off the list and acts; with none waiting the block does
nothing (R122; assumption 1). Nothing is timed (assumption 14, DESIGN CHOICE). -/
def nextInput (s : State) : Result :=
  match s.inbox with
  | [] => .next s
  | i :: rest => takeInput i { s with inbox := rest }

/-- The inputs `is` placed before those still to come. -/
def deliver (is : List Input) (s : State) : State := { s with inbox := is ++ s.inbox }

end Sys2Proof.Machine
end

