-- ==== Sys2Proof/Machine/Step.lean ====
section
/-! DEFINITION. One step of the block: one input (00_scope R10). -/

namespace Sys2Proof.Machine

def step (s : State) : Host.Outcome State Fault Refusal := nextInput s

/-- The instruction of `w` as the next input: the host's write of it to `CMD` (assumption 1). -/
def State.withFetchWord (s : State) (nbits w : Nat) : State :=
  deliver [.cmd (BitVec.ofNat 32 (w % 2 ^ nbits))] s

end Sys2Proof.Machine
end

