-- ==== Sys2Proof/Machine/Assembler.lean ====
section
/-! DEFINITION. The assembly syntax of host command programs (30_encoding R96, R97): one line of text to the
command words it stands for. -/

namespace Sys2Proof.Machine

/-- What an operand of a line names (R96): the field it goes to and the names it may be written with. -/
inductive AsmOperand where
  | channel
  | buffer
  | mode
  | register
  | length
  | index
  | value
deriving DecidableEq, Repr

/-- The names operands may be written with, and their codes (R96, R286). -/
def AsmOperand.names : AsmOperand → List (String × Nat)
  | .channel => []
  | .buffer => [("rx", 0), ("tx", 1), ("out", 2), ("stm", 3)]
  | .mode => [("send", 0), ("recv", 1)]
  | .register =>
    [("rx_idx", 0x00), ("stm_idx", 0x01), ("temp", 0x02), ("soil", 0x03), ("stype0", 0x04), ("stype1", 0x05),
     ("stype2", 0x06), ("stype3", 0x07), ("tocnt", 0x08), ("stm_last", 0x09), ("lines", 0x0A), ("cp_fail", 0x0B)]
  | .length => []
  | .index => []
  | .value => []

/-- How far left an operand's field stands in the word: `FA`, `FB` or `FC` (R90, R91). -/
def AsmOperand.shift : AsmOperand → Nat
  | .channel => 16
  | .buffer => 16
  | .mode => 16
  | .register => 16
  | .length => 8
  | .index => 8
  | .value => 0

/-- The mnemonics with their opcodes and their operands in the order FA, FB, FC (R92, R96). -/
def asmTable : List (String × Nat × List AsmOperand) :=
  [ ("cp.waitstart", 0x01, []),
    ("cp.sendbyte", 0x02, [.value]),
    ("cp.recvbyte", 0x03, []),
    ("cp.waitmsg", 0x04, []),
    ("cp.sendmsg", 0x05, [.length]),
    ("cp.grabmsg", 0x06, []),
    ("crc.run", 0x07, [.mode, .length]),
    ("stm.measure", 0x10, [.channel]),
    ("stm.typeprobe", 0x11, [.channel]),
    ("stm.checksum", 0x12, []),
    ("stm.parse", 0x13, []),
    ("buf.write", 0x20, [.buffer, .index, .value]),
    ("buf.read", 0x21, [.buffer, .index]),
    ("reg.read", 0x22, [.register]) ]

/-- The text before a comment's `;`. A `;` inside a character or a string is no comment; `inStr` says
that the scan stands inside a string. -/
def asmUncomment (inStr : Bool) : List Char → List Char
  | [] => []
  | '\'' :: c :: '\'' :: rest =>
    if inStr then
      if c = '"' then '\'' :: c :: '\'' :: asmUncomment false rest else '\'' :: c :: '\'' :: asmUncomment inStr rest
    else '\'' :: c :: '\'' :: asmUncomment inStr rest
  | c :: rest =>
    if c = '"' then c :: asmUncomment (!inStr) rest
    else if c = ';' && !inStr then []
    else c :: asmUncomment inStr rest

/-- The pieces of a text between its commas. A comma inside a character, a string or brackets does not
separate; `piece` is the piece so far, last character first. -/
def asmSplit (inStr inList : Bool) (piece : List Char) : List Char → List (List Char)
  | [] => [piece.reverse]
  | '\'' :: c :: '\'' :: rest =>
    if inStr && c = '"' then asmSplit false inList ('\'' :: c :: '\'' :: piece) rest
    else asmSplit inStr inList ('\'' :: c :: '\'' :: piece) rest
  | c :: rest =>
    if c = ',' && !inStr && !inList then piece.reverse :: asmSplit false false [] rest
    else
      asmSplit (if c = '"' then !inStr else inStr)
        (if inStr then inList else if c = '[' then true else if c = ']' then false else inList) (c :: piece) rest

/-- A text without the white space around it. -/
def asmTrim (t : List Char) : List Char :=
  ((t.dropWhile Char.isWhitespace).reverse.dropWhile Char.isWhitespace).reverse

/-- The value of a digit in a base. -/
def asmDigit (base : Nat) (c : Char) : Option Nat :=
  let d := if c.isDigit then c.toNat - 48 else if c.isLower then c.toNat - 87 else if c.isUpper then c.toNat - 55 else base
  if d < base then some d else none

/-- A non-empty run of digits in a base. -/
def asmDigits (base : Nat) : List Char → Option Nat
  | [] => none
  | ds => ds.foldl (fun n c => n.bind fun n => (asmDigit base c).map fun d => n * base + d) (some 0)

/-- A number: decimal, `0x` hexadecimal, or a character in single quotes, its ASCII code (R96). DESIGN
CHOICE (assumption 12): a character outside ASCII, of which the spec says nothing, counts as its code point. -/
def asmNumber : List Char → Option Nat
  | ['\'', c, '\''] => some c.toNat
  | '0' :: 'x' :: ds => asmDigits 16 ds
  | ds => asmDigits 10 ds

/-- An operand: one of its names or a number, in a byte; a larger number is not in the syntax (R96;
assumption 12, DESIGN CHOICE). -/
def asmOperand (k : AsmOperand) (t : List Char) : Option Nat :=
  let v :=
    match k.names.find? (fun n => n.1.toList = t) with
    | some n => some n.2
    | none => asmNumber t
  v.bind fun n => if n < 256 then some n else none

/-- The operands of a command added into its word. -/
def asmOperands : List AsmOperand → List (List Char) → Nat → Option Nat
  | [], [], w => some w
  | k :: ks, t :: ts, w => (asmOperand k t).bind fun v => asmOperands ks ts (w + v * 2 ^ k.shift)
  | [], _ :: _, _ => none
  | _ :: _, [], _ => none

/-- The bytes of a string operand, up to its closing quote: ASCII codes, with the escapes `\r` and `\n`
(R97). DESIGN CHOICE (assumption 12): a character outside ASCII counts as its code point, which
`bufLoadWords` takes below 256 and refuses above; another escape is not in the syntax. -/
def asmString : List Char → Option (List Nat)
  | ['"'] => some []
  | '\\' :: 'r' :: rest => (asmString rest).map (0x0D :: ·)
  | '\\' :: 'n' :: rest => (asmString rest).map (0x0A :: ·)
  | c :: rest => if c = '"' || c = '\\' then none else (asmString rest).map (c.toNat :: ·)
  | [] => none

/-- The bytes `buf.load` loads: a string, or a bracketed list of numbers (R97). -/
def asmBytes (t : List Char) : Option (List Nat) :=
  match t with
  | '"' :: rest => asmString rest
  | '[' :: rest =>
    match rest.reverse with
    | ']' :: inner =>
      if (asmTrim inner.reverse).isEmpty then some []
      else ((asmSplit false false [] inner.reverse).map asmTrim).mapM (asmOperand .value)
    | _ => none
  | _ => none

/-- `buf.load`: one BUF.WRITE word per byte, at rising indices (R97). -/
def bufLoadWords (buf : Nat) : Nat → List Nat → Option (List Word)
  | _, [] => some []
  | idx, b :: bs =>
    if buf < 256 && idx < 256 && b < 256 then
      (bufLoadWords buf (idx + 1) bs).map (wordOf 0x20 (BitVec.ofNat 8 buf) (BitVec.ofNat 8 idx) (BitVec.ofNat 8 b) :: ·)
    else none

/-- The mnemonic is written in lower or upper case (R96). -/
def asmSpells (name : String) (t : List Char) : Bool :=
  name.toList = t || name.toList.map Char.toUpper = t

/-- One line: its command word, the words a `buf.load` expands to, or no word for an empty line or a
comment. `none` is a line that is not in the syntax. Whether a word is legal is for its decoding to say (R96, R97; assumption 12, DESIGN CHOICE). -/
def assembleLine (line : List Char) : Option (List Word) :=
  let t := asmTrim (asmUncomment false line)
  if t.isEmpty then some []
  else
    let name := t.takeWhile fun c => !c.isWhitespace
    let rest := asmTrim (t.dropWhile fun c => !c.isWhitespace)
    let ops := if rest.isEmpty then [] else (asmSplit false false [] rest).map asmTrim
    if asmSpells "buf.load" name then
      match ops with
      | [buf, idx, bytes] =>
        (asmOperand .buffer buf).bind fun b =>
          (asmOperand .index idx).bind fun i => (asmBytes bytes).bind fun bs => bufLoadWords b i bs
      | _ => none
    else
      match asmTable.find? (fun r => asmSpells r.1 name) with
      | some r => (asmOperands r.2.2 ops (r.2.1 * 2 ^ 24)).map fun w => [BitVec.ofNat 32 w]
      | none => none

/-- A program: the words of its lines, in order. -/
def assemble : List (List Char) → Option (List Word)
  | [] => some []
  | line :: lines => (assembleLine line).bind fun ws => (assemble lines).map (ws ++ ·)

end Sys2Proof.Machine
end

