-- ==== Sys2Proof/Machine/Frame.lean ====
section
/-! DEFINITION. Frames as data (30_encoding R105–R108): what a host composes and the framer checks. The
block itself interprets no field but the length and the CRC (R106, R107, D49). -/

namespace Sys2Proof.Machine

/-- The frame types of R106: the thirteen codes of the source's table (C1). -/
inductive FrameType where
  | command
  | reportData
  | programCode
  | requestData
  | requestLabel
  | id
  | confirmCommand
  | reportError
  | requestBslPw
  | interrogate
  | setSerialnum
  | commandSensorType
  | requestSensorType
deriving DecidableEq, Repr

/-- The code of a frame type at offset 0 (R106). -/
def FrameType.code : FrameType → Byte
  | .command => 0x01
  | .reportData => 0x02
  | .programCode => 0x03
  | .requestData => 0x04
  | .requestLabel => 0x05
  | .id => 0x06
  | .confirmCommand => 0x07
  | .reportError => 0x08
  | .requestBslPw => 0x09
  | .interrogate => 0x0A
  | .setSerialnum => 0x0B
  | .commandSensorType => 0x0C
  | .requestSensorType => 0x0D

/-- The frame type of a code; 0x00 and 0x0E to 0xFF are not assigned (R106). -/
def frameTypeOf : Byte → Option FrameType
  | 0x01 => some .command
  | 0x02 => some .reportData
  | 0x03 => some .programCode
  | 0x04 => some .requestData
  | 0x05 => some .requestLabel
  | 0x06 => some .id
  | 0x07 => some .confirmCommand
  | 0x08 => some .reportError
  | 0x09 => some .requestBslPw
  | 0x0A => some .interrogate
  | 0x0B => some .setSerialnum
  | 0x0C => some .commandSensorType
  | 0x0D => some .requestSensorType
  | _ => none

/-- A frame's fields but its length and CRC, which follow from them (R105). -/
structure Frame where
  /-- Any byte: the block does not check it (R106). -/
  ftype : Byte
  version : Byte
  flags : Byte
  payload : List Byte
deriving DecidableEq, Repr

/-- `L`: the header, the payload and the CRC (R105). -/
def Frame.length (f : Frame) : Nat := f.payload.length + Config.minLen

/-- The payload of a legal frame has 0 to 58 bytes (R105, R108, C8). -/
def Frame.legal (f : Frame) : Bool := f.payload.length ≤ 58

/-- Bytes 0 to L−3: what the CRC covers (R105, R172). -/
def Frame.body (f : Frame) : List Byte :=
  [f.ftype, BitVec.ofNat 8 f.length, f.version, f.flags] ++ f.payload

/-- The frame's bytes, with its CRC little-endian at the end (R105, R173, R175). -/
def Frame.compose (P : Params) (f : Frame) : List Byte := f.body ++ le16 (P.crc16Tx f.body)

/-- The fields of a frame read back from its bytes, the length taken from byte 1 (R105). -/
def extractFrame (bytes : List Byte) : Option Frame :=
  match bytes with
  | t :: l :: v :: fl :: rest => some ⟨t, v, fl, rest.take (l.toNat - Config.minLen)⟩
  | _ => none

/-- Bit 0 of the flags byte: shutdown allowed (R107). -/
def Frame.shutdownAllowed (f : Frame) : Bool := f.flags.getLsbD 0

end Sys2Proof.Machine
end

