-- ==== Sys2Proof/Safety.lean ====
section
/-! DEFINITION. What a state of a run means (00_scope R19, 60_exceptions R312) and the invariant of the states a run reaches. -/

namespace Sys2Proof.Machine

/-- How a run stands (R19): a fault is never a result, and a command in flight has not ended. -/
inductive RunOutcome where
  | faulted (cause : Option FaultCause)
  | waiting
  | ended (result : Word)
deriving DecidableEq, Repr

/-- The standing of a run at a state (R19, R312; assumption 2). -/
def State.outcome (s : State) : RunOutcome :=
  if s.status.fault then .faulted s.status.faultCause
  else if s.status.active then .waiting
  else .ended s.result

/-- Every buffer is in the canonical form, within its capacity (R70, R71). -/
abbrev State.BuffersOk (s : State) : Prop :=
  s.rxBuf.wf BufId.rx.cap ∧ s.txBuf.wf BufId.tx.cap ∧ s.outBuf.wf BufId.out.cap ∧ s.stmBuf.wf BufId.stm.cap

/-- The indices and counters are in the ranges R46, R48, R50, R53 and R55 give. -/
abbrev State.CountersOk (s : State) : Prop :=
  s.rxIdx.toNat ≤ 64 ∧ s.stmIdx.toNat < 20 ∧ (1 ≤ s.cp.cyc.toNat ∧ s.cp.cyc.toNat ≤ 10) ∧
    s.cp.fail.toNat ≤ 5 ∧ s.cp.txi.toNat ≤ 64 ∧ s.stm.tocnt.toNat ≤ 10 ∧ (1 ≤ s.stm.k.toNat ∧ s.stm.k.toNat ≤ 9)

/-- `FAULT` goes with its one cause and stops the command in flight (R312, I7); at most one rejection bit is set (R302, R303). -/
abbrev State.StatusOk (s : State) : Prop :=
  (s.status.fault = true ↔ s.status.faultCause = some .rxOverrun) ∧
    (s.status.fault = true → s.status.active = false) ∧
    ¬(s.status.busyReject = true ∧ s.status.illegal = true)

/-- A command is in flight exactly while an engine is out of its idle state, and one engine at most is (R84, R301). -/
abbrev State.EnginesOk (s : State) : Prop :=
  (s.status.active = false ↔ s.cp.cps = .idle ∧ s.stm.sts = .idle) ∧ (s.cp.cps = .idle ∨ s.stm.sts = .idle)

/-- A CP.WAITMSG stands before the end of its frame (R183). -/
abbrev State.WaitmsgOk (s : State) : Prop :=
  s.rxIdx.toNat < 4 ∨ (legalLen (s.rxBuf.get 1) = true ∧ s.rxIdx.toNat < (s.rxBuf.get 1).toNat)

/-- A CP.SENDMSG stands before the end of its frame and of its failure budget (R187, R188). -/
abbrev State.SendmsgOk (s : State) : Prop :=
  6 ≤ s.cp.len.toNat ∧ s.cp.len.toNat ≤ 64 ∧ s.cp.txi.toNat < s.cp.len.toNat ∧ s.cp.fail.toNat < 5

/-- The CP engine's command, direction and state go together (R45, R46, R129, R146). -/
abbrev State.CpOk (s : State) : Prop :=
  (s.cp.cps = .idle ↔ s.cp.op = .none) ∧
    (s.cp.cps = .ws1 ∨ s.cp.cps = .ws2 ↔ s.cp.op = .waitstart) ∧
    (s.cp.cps = .sync ∨ s.cp.cps = .xfer →
      (s.cp.dir = .tx ↔ s.cp.op = .sendbyte ∨ s.cp.op = .sendmsg)) ∧
    (s.cp.cps = .sync → s.lines.clkLvl = true) ∧
    (s.cp.op = .sendmsg → s.SendmsgOk) ∧ (s.cp.op = .waitmsg → s.WaitmsgOk)

/-- The block drives the data line in cycles 1 to 9 of a send and cycle 10 of a receive, and never else (R110, R356). -/
abbrev State.DriveOk (s : State) : Prop :=
  s.lines.cpOe = true ↔
    s.cp.cps = .xfer ∧ (s.cp.dir = .tx ∧ s.cp.cyc.toNat ≤ 9 ∨ s.cp.dir = .rx ∧ s.cp.cyc = 10)

/-- The STM engine's command and state go together; the edge interrupt is enabled exactly in
`STM_ARMED`; the iteration count is below its bound; only the selected channel of a command in flight
is powered (R55, R211, R219, R240). -/
abbrev State.StmOk (s : State) : Prop :=
  (s.stm.sts = .idle ↔ s.stm.op = .none) ∧ (s.stm.edgeEn = true ↔ s.stm.sts = .armed) ∧
    (s.stm.sts ≠ .idle → s.stm.nmax = s.stm.op.iterations ∧ s.stm.tocnt.toNat < s.stm.nmax.toNat) ∧
    s.lines.exc =
      if s.stm.sts = .idle then PerChannel.all false else (PerChannel.all false).set s.stm.ch true

/-- The invariant of the states a run from reset reaches. -/
abbrev State.Inv (s : State) : Prop :=
  s.BuffersOk ∧ s.CountersOk ∧ s.StatusOk ∧ s.EnginesOk ∧ s.CpOk ∧ s.DriveOk ∧ s.StmOk

/-- The state a command needs to be accepted (R300, R301): no fault, no command in flight. -/
abbrev State.Ready (s : State) : Prop := s.status.fault = false ∧ s.status.active = false

/-- `STATUS` after a command of opcode `opc` is accepted, with `ACTIVE` as given (R301). -/
def acceptedStatus (opc : Byte) (active : Bool) (s : State) : Status :=
  { s.status with busyReject := false, illegal := false, lastOpc := opc, active := active }

/-- The commands that wait for events (R301). -/
def waitsForEvents : Instr → Bool
  | .cpWaitstart => true
  | .cpSendbyte _ => true
  | .cpRecvbyte => true
  | .cpWaitmsg => true
  | .cpSendmsg _ => true
  | .cpGrabmsg => false
  | .crcRun _ _ => false
  | .stmMeasure _ => true
  | .stmTypeprobe _ => true
  | .stmChecksum => false
  | .stmParse => false
  | .bufWrite _ _ _ => false
  | .bufRead _ _ => false
  | .regRead _ => false

/-- `n` steps of the machine, as `Host.Core.run` takes them. -/
def steps : Nat → State → Result
  | 0, s => .next s
  | n + 1, s =>
    match step s with
    | .next t => steps n t
    | .fault r => .fault r
    | .refused r => .refused r

/-- The machine run on the inputs `is`, one step each. -/
def runs (is : List Input) (s : State) : Result := steps is.length (deliver is s)

/-- The state a step ends in, if it ends in one, with a property of it. -/
def Ends (r : Result) (p : State → Prop) : Prop := ∃ t, r = .next t ∧ p t

/-- One clock cycle of the peer (R16, R110). -/
def clockCycle : List Input := [.clkRise, .clkFall]

/-- `n` clock cycles of the peer. -/
def clockCycles : Nat → List Input
  | 0 => []
  | n + 1 => clockCycle ++ clockCycles n

/-- The peer presents a bit and clocks it (R110). -/
def peerBit (d : Bool) : List Input := [.datSet d, .clkRise, .clkFall]

/-- The peer sends the bits of a byte, most significant first, then a parity bit (R110). -/
def peerByte (d : Byte) (p : Bool) : List Input :=
  peerBit (d.getLsbD 7) ++ peerBit (d.getLsbD 6) ++ peerBit (d.getLsbD 5) ++ peerBit (d.getLsbD 4) ++
    peerBit (d.getLsbD 3) ++ peerBit (d.getLsbD 2) ++ peerBit (d.getLsbD 1) ++ peerBit (d.getLsbD 0) ++ peerBit p

/-- A sensor presents a bit and the timer ticks (R114). -/
def sensorBit (ch : Channel) (b : Bool) : List Input := [.rxSet ch b, .bitTick]

/-- A sensor sends a character: the start bit, the data bits, least significant first, and the stop bit (R114). -/
def sensorChar (ch : Channel) (b : Byte) : List Input :=
  .rxSet ch false :: (sensorBit ch (b.getLsbD 0) ++ sensorBit ch (b.getLsbD 1) ++ sensorBit ch (b.getLsbD 2) ++
    sensorBit ch (b.getLsbD 3) ++ sensorBit ch (b.getLsbD 4) ++ sensorBit ch (b.getLsbD 5) ++
    sensorBit ch (b.getLsbD 6) ++ sensorBit ch (b.getLsbD 7) ++ sensorBit ch true)

/-- The characters of an optionally pointed decimal field, at most nine digits (R250, R261). -/
def isDecimalField (ds : List Byte) : Bool :=
  ds.all (fun c => c = Config.dot || (0x30 ≤ c.toNat && c.toNat ≤ 0x39)) && (ds.filter (· ≠ Config.dot)).length ≤ 9

/-- The decimal number a field spells when its points are left out (R259, R264). -/
def decimalValue (ds : List Byte) : Nat :=
  ds.foldl (fun n c => if c = Config.dot then n else 10 * n + (c.toNat - 0x30)) 0

end Sys2Proof.Machine
end

