-- ==== Sys2Proof/Certificates/Slice0/Obligations.lean ====
section
/-! DEFINITION. The statements about the machine, from the numbered rules of spec/. -/

open Sys2Proof Sys2Proof.Machine

/-! ### The command word -/

/-- The decoder reads back what the encoder writes, for every command with every legal operand (30_encoding §1, §2). -/
def Obligations.DecodeOfEncode : Prop :=
  ∀ i : Instr, i.wellFormed = true → decode (encode i) = .ok i

/-- A word that decodes is the word of exactly that command, and its operands are legal (30_encoding §1–§3). -/
def Obligations.EncodeOfDecode : Prop :=
  ∀ (w : Word) (i : Instr), decode w = .ok i → i.wellFormed = true ∧ encode i = w

/-- No word fits two rows of the opcode table, and a command's word fits its own row (30_encoding §2, R95). -/
def Obligations.OpcodeRowsDisjoint : Prop :=
  (∀ (w : Word) (r r' : OpcodeRow), r ∈ opcodeTable → r' ∈ opcodeTable → r.fits w = true → r'.fits w = true → r = r') ∧
    ∀ i : Instr, ∃ r, opcodeTable[i.rowIndex]? = some r ∧ r.fits (encode i) = true

/-- R93 and R94, in numbers: the fields `OPC`, `FA`, `FB`, `FC` of the legal commands. -/
abbrev Sys2Proof.legalFields (o a b c : Nat) : Prop :=
  ((o = 0x01 ∨ o = 0x03 ∨ o = 0x04 ∨ o = 0x06 ∨ o = 0x12 ∨ o = 0x13) ∧ a = 0 ∧ b = 0 ∧ c = 0) ∨
    (o = 0x02 ∧ a = 0 ∧ b = 0) ∨
    (o = 0x05 ∧ a = 0 ∧ c = 0 ∧ 6 ≤ b ∧ b ≤ 64) ∨
    (o = 0x07 ∧ a ≤ 1 ∧ c = 0 ∧ 6 ≤ b ∧ b ≤ 64) ∨
    ((o = 0x10 ∨ o = 0x11) ∧ a ≤ 3 ∧ b = 0 ∧ c = 0) ∨
    (o = 0x20 ∧ (a ≤ 2 ∧ b < 64 ∨ a = 3 ∧ b < 20)) ∨
    (o = 0x21 ∧ (a ≤ 2 ∧ b < 64 ∨ a = 3 ∧ b < 20) ∧ c = 0) ∨
    (o = 0x22 ∧ a ≤ 0x0B ∧ b = 0 ∧ c = 0)

/-- The words that are legal commands. -/
abbrev Sys2Proof.legalByRanges (w : Word) : Prop :=
  legalFields (fieldOpc w).toNat (fieldA w).toNat (fieldB w).toNat (fieldC w).toNat

/-- R93, R94: a word outside the ranges is illegal and, with no fault and no command in flight, only
sets `ILLEGAL`; a word inside them is a command. -/
def Obligations.IllegalWordsRejected : Prop :=
  (∀ w : Word, legalByRanges w → ∃ i, decode w = .ok i) ∧
    ∀ w : Word, ¬legalByRanges w → (∃ e, decode w = .error e) ∧
      ∀ s : State, s.Ready → takeInput (.cmd w) s =
        .next { s with status := { s.status with illegal := true, busyReject := false } }

/-- Words written out from the spec's own tables and examples (30_encoding R96, 95_test_vectors). -/
def Obligations.SpecWordsDecode : Prop :=
  decode 0x01000000 = .ok .cpWaitstart ∧ decode 0x0200005A = .ok (.cpSendbyte 0x5A) ∧
    decode 0x05000600 = .ok (.cpSendmsg 6) ∧ decode 0x07010600 = .ok (.crcRun .recv 6) ∧
    decode 0x10020000 = .ok (.stmMeasure .c2) ∧ decode 0x20030420 = .ok (.bufWrite .stm 4 0x20) ∧
    decode 0x21020400 = .ok (.bufRead .out 4) ∧ decode 0x220B0000 = .ok (.regRead .cpFail)

/-- R97: `buf.load` of bytes that fit the buffer expands to one word per byte, in order, each the word of
BUF.WRITE of that byte at its index. -/
def Obligations.BufLoadExpands : Prop :=
  ∀ (buf : BufId) (idx : Nat) (bs : List Byte), idx + bs.length ≤ buf.cap →
    ∃ ws, bufLoadWords buf.code.toNat idx (bs.map BitVec.toNat) = some ws ∧ ws.length = bs.length ∧
      ∀ (k : Nat) (b : Byte), bs[k]? = some b →
        ∃ w, ws[k]? = some w ∧ decode w = .ok (.bufWrite buf (BitVec.ofNat 8 (idx + k)) b)

/-! ### Acceptance, rejection, steps -/

/-- R300, R302, R303: a command word is ignored in a fault, rejected as busy, rejected as illegal, or executed, in that order. -/
def Obligations.CommandOrder : Prop :=
  ∀ (w : Word) (s : State),
    (s.status.fault = true → takeInput (.cmd w) s = .next s) ∧
      (s.status.fault = false → s.status.active = true →
        takeInput (.cmd w) s = .next { s with status := { s.status with busyReject := true, illegal := false } }) ∧
      (s.Ready → ∀ e, decode w = .error e →
        takeInput (.cmd w) s = .next { s with status := { s.status with illegal := true, busyReject := false } }) ∧
      (s.Ready → ∀ i, decode w = .ok i → takeInput (.cmd w) s = exec i s)

/-- Every legal command completes its accepting step when nothing is in flight, with the `STATUS` of R301. -/
def Obligations.LegalCommandsAccepted : Prop :=
  ∀ (i : Instr) (s : State), i.wellFormed = true → s.Ready →
    Ends (exec i s) fun t => t.status = acceptedStatus i.opcode (waitsForEvents i) s

/-- A step takes the next input; when it is a command word that decodes to `i`, the step is `exec` of
`i` on the state with the word taken off. With no input waiting the block does nothing (R10, R122;
the input list is the model's, assumption 1). -/
def Obligations.StepRunsDecoded : Prop :=
  (∀ (s : State) (w : Word) (rest : List Input) (i : Instr), s.inbox = .cmd w :: rest → decode w = .ok i →
      step s = exec i { s with inbox := rest }) ∧
    (∀ (s : State) (i : Input) (rest : List Input), s.inbox = i :: rest → step s = takeInput i { s with inbox := rest }) ∧
    ∀ s : State, s.inbox = [] → step s = .next s

/-- A step's effect does not depend on the inputs still to come, and leaves them as they are (R10; assumption 1). -/
def Obligations.FutureInputsNotRead : Prop :=
  ∀ (i : Input) (s : State) (rest : List Input),
    takeInput i { s with inbox := rest } =
      match takeInput i s with
      | .next t => .next { t with inbox := rest }
      | .fault r => .fault r
      | .refused r => .refused r

/-! ### Acceptance of the commands that wait -/

/-- CP.WAITSTART on acceptance (R120): the wait begins and the data line is released; nothing else changes. -/
def Obligations.WaitstartAccepted : Prop :=
  ∀ s : State, s.Ready → exec .cpWaitstart s =
    .next { s with
      status := acceptedStatus 0x01 true s
      cp := { s.cp with op := .waitstart, cps := .ws1 }
      lines := { s.lines with cpOe := false } }

/-- CP.SENDBYTE on acceptance (R125, R126, R130): with the clock low bit 0 is driven at once, with the
clock high the engine waits for its fall; nothing else changes. -/
def Obligations.SendbyteAccepted : Prop :=
  ∀ (v : Byte) (s : State), s.Ready → exec (.cpSendbyte v) s =
    .next { s with
      status := acceptedStatus 0x02 true s
      cp := { s.cp with
        op := .sendbyte, dir := .tx, ack := false, shift := v, par := parity v
        cps := if s.lines.clkLvl then .sync else .xfer
        cyc := if s.lines.clkLvl then s.cp.cyc else 1 }
      lines := if s.lines.clkLvl then s.lines else { s.lines with cpOe := true, cpOut := v.getLsbD 0 } }

/-- What `begin_byte(RX, _)` leaves in the CP engine (R125). -/
def Sys2Proof.receiving (op : CpOp) (s : State) : CpEngine :=
  { s.cp with
    op := op, dir := .rx, ack := false, shift := 0x00, par := false, pb := false, mis := false
    cps := if s.lines.clkLvl then .sync else .xfer
    cyc := if s.lines.clkLvl then s.cp.cyc else 1 }

/-- CP.RECVBYTE and CP.WAITMSG on acceptance (R125, R126, R140, R180): a receive begins; CP.WAITMSG
starts its frame at index 0; nothing else changes. -/
def Obligations.ReceivesAccepted : Prop :=
  ∀ s : State, s.Ready →
    exec .cpRecvbyte s =
        .next { s with
          status := acceptedStatus 0x03 true s
          cp := receiving .recvbyte s
          lines := if s.lines.clkLvl then s.lines else { s.lines with cpOe := false } } ∧
      exec .cpWaitmsg s =
        .next { s with
          status := acceptedStatus 0x04 true s
          cp := receiving .waitmsg s
          rxIdx := 0
          lines := if s.lines.clkLvl then s.lines else { s.lines with cpOe := false } }

/-- CP.SENDMSG on acceptance (R185): the CRC goes into `TX_BUF`, the counters start at 0 and the send
of byte 0 begins; nothing else changes. -/
def Obligations.SendmsgAccepted : Prop :=
  ∀ (len : Byte) (s : State), legalLen len = true → s.Ready →
    let tx := crcSend params s.txBuf len.toNat
    exec (.cpSendmsg len) s =
      .next { s with
        status := acceptedStatus 0x05 true s
        txBuf := tx
        cp := { s.cp with
          op := .sendmsg, len := len.setWidth 7, txi := 0, fail := 0, dir := .tx, ack := false
          shift := tx.get 0, par := parity (tx.get 0)
          cps := if s.lines.clkLvl then .sync else .xfer
          cyc := if s.lines.clkLvl then s.cp.cyc else 1 }
        lines := if s.lines.clkLvl then s.lines else { s.lines with cpOe := true, cpOut := (tx.get 0).getLsbD 0 } }

/-- What `start_stm(op, ch)` leaves (R215), with the opcode's `STATUS` (R301). -/
def Sys2Proof.stmStarted (opc : Byte) (op : StmOp) (nmax : BitVec 4) (ch : Channel) (s : State) : State :=
  { s with
    status := acceptedStatus opc true s
    stm := { s.stm with
      op := op, ch := ch, nmax := nmax, tocnt := 0, lastv := false, lastb := 0x00, edgeEn := false, sts := .exciting }
    stmBuf := []
    stmIdx := 0
    lines := { s.lines with exc := s.lines.exc.set ch true } }

/-- STM.MEASURE and STM.TYPEPROBE on acceptance (R215): the bound is 10 or 3, every byte of `STM_BUF`
reads 0x00, the channel is powered; nothing else changes. -/
def Obligations.StmCommandsAccepted : Prop :=
  ∀ (ch : Channel) (s : State), s.Ready →
    exec (.stmMeasure ch) s = .next (stmStarted 0x10 .measure 10 ch s) ∧
      exec (.stmTypeprobe ch) s = .next (stmStarted 0x11 .typeprobe 3 ch s) ∧
      ∀ i, (stmStarted 0x10 .measure 10 ch s).stmBuf.get i = 0x00

/-! ### The framer and the CRC -/

/-- CP.GRABMSG's result code, by the checks of R190 in their order. -/
def Sys2Proof.grabCode (s : State) : Word :=
  let len := (s.rxBuf.get 1).toNat
  if s.rxIdx.toNat < 4 then 1
  else if len > 64 then 1
  else if len > s.rxIdx.toNat then 1
  else if len < 6 then 2
  else if params.crcRxOk (s.rxBuf.slice 0 len) = false then 2
  else 0

/-- CP.GRABMSG (R190): the code of its checks; on 0 the frame's bytes are in `OUT_BUF`, the bytes past
them are as before and `RX_IDX` is 0; on 1 and 2 nothing but `RESULT` and `STATUS` changes. -/
def Obligations.GrabmsgExtracts : Prop :=
  ∀ s : State, s.Ready → s.BuffersOk →
    Ends (exec .cpGrabmsg s) fun t =>
      t = { s with result := grabCode s, status := acceptedStatus 0x06 false s, outBuf := t.outBuf, rxIdx := t.rxIdx } ∧
        (grabCode s = 0 → t.rxIdx = 0 ∧
          ∀ i, t.outBuf.get i = if i < (s.rxBuf.get 1).toNat then s.rxBuf.get i else s.outBuf.get i) ∧
        (grabCode s ≠ 0 → t.rxIdx = s.rxIdx ∧ t.outBuf = s.outBuf)

/-- The round trip of R175: a composed frame that was received is extracted unchanged, whatever the CRC pair. -/
def Obligations.FrameRoundTrip : Prop :=
  ∀ (f : Frame) (s : State), f.legal = true → s.Ready → s.BuffersOk →
    s.rxBuf.slice 0 f.length = f.compose params → s.rxIdx.toNat = f.length →
    Ends (exec .cpGrabmsg s) fun t =>
      t.result = 0 ∧ t.outBuf.slice 0 f.length = f.compose params ∧
        extractFrame (t.outBuf.slice 0 f.length) = some f ∧ t.rxIdx = 0

/-- CRC.RUN send (R172–R174, R195): the last two bytes of the frame in `TX_BUF` become the CRC of the
bytes before them, low byte first; `RESULT` is 1; nothing else changes. -/
def Obligations.CrcSendWrites : Prop :=
  ∀ (len : Byte) (s : State), legalLen len = true → s.Ready → s.BuffersOk →
    let n := len.toNat
    let h := params.crc16Tx (s.txBuf.slice 0 (n - 2))
    Ends (exec (.crcRun .send len) s) fun t =>
      t = { s with result := 1, status := acceptedStatus 0x07 false s, txBuf := t.txBuf } ∧
        t.txBuf.get (n - 2) = h.extractLsb' 0 8 ∧ t.txBuf.get (n - 1) = h.extractLsb' 8 8 ∧
        ∀ i, i ≠ n - 2 → i ≠ n - 1 → t.txBuf.get i = s.txBuf.get i

/-- CRC.RUN receive (R174, R195): 1 exactly if `CRC_RX_OK` accepts the frame in `RX_BUF`; nothing is written. -/
def Obligations.CrcRecvReports : Prop :=
  ∀ (len : Byte) (s : State), legalLen len = true → s.Ready →
    exec (.crcRun .recv len) s =
      .next { s with
        result := if params.crcRxOk (s.rxBuf.slice 0 len.toNat) = true then 1 else 0
        status := acceptedStatus 0x07 false s }

/-- R175 on the machine: a frame given its CRC by CRC.RUN send is intact to CRC.RUN receive. -/
def Obligations.CrcSendThenReceive : Prop :=
  ∀ (len : Byte) (s : State), legalLen len = true → s.Ready → s.BuffersOk →
    Ends (exec (.crcRun .send len) s) fun t =>
      ∀ u : State, u.Ready → u.rxBuf = t.txBuf → Ends (exec (.crcRun .recv len) u) fun v => v.result = 1

/-! ### The sensor reply -/

/-- STM.CHECKSUM (R252, R253, R255): `RESULT` is 0 exactly if the first CR stands at an index of at
most 17 and the byte two after it is the expected checksum, else 1; nothing else changes. -/
def Obligations.ChecksumVerdict : Prop :=
  ∀ s : State, s.Ready →
    Ends (exec .stmChecksum s) fun t =>
      t = { s with result := t.result, status := acceptedStatus 0x12 false s } ∧ (t.result = 0 ∨ t.result = 1) ∧
        (t.result = 0 ↔ ∃ n, n ≤ 17 ∧ s.stmBuf.get n = 0x0D ∧ (∀ j, j < n → s.stmBuf.get j ≠ 0x0D) ∧
          (s.stmBuf.get (n + 2)).toNat =
            ((List.range (n + 2)).map fun i => (s.stmBuf.get i).toNat).sum % 64 + 32)

/-- The expected checksum is printable, so it is never a CR or an LF (R253, R256). -/
def Obligations.ChecksumNeverTerminates : Prop :=
  ∀ (s : State) (n : Nat), findCr s.stmBuf = some n → checksumPasses s.stmBuf = true →
    0x20 ≤ (s.stmBuf.get (n + 2)).toNat ∧ (s.stmBuf.get (n + 2)).toNat ≤ 0x5F ∧
      s.stmBuf.get (n + 2) ≠ 0x0D ∧ s.stmBuf.get (n + 2) ≠ 0x0A

/-- R261: a field's value modulo 2^32, each byte counting for `c − 0x30`; a signed family leaves points out (R259). -/
def Sys2Proof.fieldWord (signed : Bool) (ds : List Byte) : Word :=
  ds.foldl (fun n c => if signed && c = 0x2E then n else 10 * n + (BitVec.ofNat 32 c.toNat - 0x30)) 0

/-- A field's value with its sign (R260, R262). -/
def Sys2Proof.signedWord (neg : Bool) (w : Word) : Word := if neg then 0 - w else w

/-- The bytes of a field, which may be none: no space, no CR, and in a signed family no minus (R250, R259). -/
def Sys2Proof.isField (signed : Bool) (ds : List Byte) : Bool :=
  ds.all fun c => c ≠ 0x20 && c ≠ 0x0D && !(signed && c = 0x2D)

/-- The discriminators of the three families: family 1 is the signed one (R258). -/
abbrev Sys2Proof.discriminates (signed : Bool) (d : Byte) : Prop :=
  (signed = true ∧ d = 0x7A) ∨ (signed = false ∧ (d = params.fam2Code ∨ d = params.fam3Code))

/-- What stands between field A and the bytes `rest` left of it, and whether it negates A: nothing at
the buffer's start, a space, in a signed family a minus with or without a space left of it (R259, R260). -/
abbrev Sys2Proof.separates (signed neg : Bool) (rest sep : List Byte) : Prop :=
  (neg = false ∧ (sep = [0x20] ∨ sep = [] ∧ rest = [])) ∨
    (signed = true ∧ neg = true ∧ (sep = [0x20, 0x2D] ∨ sep = [0x2D] ∧ rest.getLast? ≠ some 0x20))

/-- What stands left of field B, and whether it negates B: the buffer's start, a space, in a signed
family a minus (R259, R260). -/
abbrev Sys2Proof.precedes (signed neg : Bool) (pre : List Byte) : Prop :=
  (neg = false ∧ (pre = [] ∨ pre.getLast? = some 0x20)) ∨ (signed = true ∧ neg = true ∧ pre.getLast? = some 0x2D)

/-- STM.PARSE on every reply of a known family (R258–R264): `SOIL` is field A, the rightmost before the
first CR, and `TEMP` field B, the one to its left, each with the value of its bytes modulo 2^32, negated
after a minus in family 1; nothing else changes but `RESULT` and `STATUS`. The value of a decimal field
of at most nine digits is the number it spells, points left out. -/
def Obligations.ParseReadsDecimals : Prop :=
  (∀ (s : State) (signed negA negB : Bool) (d : Byte) (pre b sep a : List Byte), s.Ready →
      discriminates signed d → isField signed a = true → isField signed b = true → 0x0D ∉ pre →
      precedes signed negB pre → separates signed negA (pre ++ b) sep →
      let reply := pre ++ b ++ sep ++ a ++ [0x0D, d]
      reply.length ≤ 20 → s.stmBuf.slice 0 reply.length = reply →
      exec .stmParse s =
        .next { s with
          result := 0
          status := acceptedStatus 0x13 false s
          temp := signedWord negB (fieldWord signed b)
          soil := signedWord negA (fieldWord signed a) }) ∧
    ∀ (signed neg : Bool) (ds : List Byte), isDecimalField ds = true → (signed = true ∨ 0x2E ∉ ds) →
      (signedWord neg (fieldWord signed ds)).toInt = if neg then -(decimalValue ds : Int) else decimalValue ds

/-- STM.PARSE with no CR at an index of at most 18, or an unrecognized discriminator (R262): `TEMP` and
`SOIL` stay, and `RESULT` is 0. -/
def Obligations.ParseUnrecognized : Prop :=
  ∀ s : State, s.Ready →
    (∀ n, n ≤ 18 → s.stmBuf.get n = 0x0D → (∀ j, j < n → s.stmBuf.get j ≠ 0x0D) →
      s.stmBuf.get (n + 1) ≠ 0x7A ∧ s.stmBuf.get (n + 1) ≠ params.fam2Code ∧ s.stmBuf.get (n + 1) ≠ params.fam3Code) →
    exec .stmParse s = .next { s with result := 0, status := acceptedStatus 0x13 false s }

/-- R263: what STM.PARSE writes depends on `STM_BUF` alone, only `TEMP` and `SOIL` are written, and
parsing again gives the same pair. -/
def Obligations.ParseIdempotent : Prop :=
  (∀ m : Memory, ∃ p : Option (Word × Word), ∀ s : State, s.Ready → s.stmBuf = m →
      exec .stmParse s =
        .next { s with
          result := 0
          status := acceptedStatus 0x13 false s
          soil := (p.getD (s.soil, s.temp)).1
          temp := (p.getD (s.soil, s.temp)).2 }) ∧
    ∀ s t u : State, exec .stmParse s = .next t → exec .stmParse t = .next u → u.temp = t.temp ∧ u.soil = t.soil

/-! ### Host access -/

/-- BUF.WRITE (R280): the byte is stored, `RESULT` is 0, every other byte of every buffer reads as
before, no index moves and nothing else changes. -/
def Obligations.BufWriteStores : Prop :=
  ∀ (buf : BufId) (idx v : Byte) (s : State), legalIdx buf idx = true → s.Ready → s.BuffersOk →
    Ends (exec (.bufWrite buf idx v) s) fun t =>
      t = { s with
        result := 0, status := acceptedStatus 0x20 false s
        rxBuf := t.rxBuf, txBuf := t.txBuf, outBuf := t.outBuf, stmBuf := t.stmBuf } ∧
        ∀ b i, (t.buf b).get i = if b = buf ∧ i = idx.toNat then v else (s.buf b).get i

/-- BUF.READ (R79, R283): `RESULT` is the byte, zero-extended; nothing else changes. -/
def Obligations.BufReadReturns : Prop :=
  ∀ (buf : BufId) (idx : Byte) (s : State), legalIdx buf idx = true → s.Ready →
    exec (.bufRead buf idx) s =
      .next { s with
        result := BitVec.ofNat 32 ((s.buf buf).get idx.toNat).toNat
        status := acceptedStatus 0x21 false s }

/-- R286's table, in numbers. -/
def Sys2Proof.regTable (s : State) : RegId → Nat
  | .rxIdx => s.rxIdx.toNat
  | .stmIdx => s.stmIdx.toNat
  | .temp => s.temp.toNat
  | .soil => s.soil.toNat
  | .stype ch => (s.stype.get ch).toNat
  | .tocnt => s.stm.tocnt.toNat
  | .stmLast => s.stm.lastv.toNat * 2 ^ 8 + s.stm.lastb.toNat
  | .lines =>
    s.lines.clkLvl.toNat + s.lines.datLine.toNat * 2 ^ 1 + s.lines.cpOe.toNat * 2 ^ 2 + s.lines.cpOut.toNat * 2 ^ 3 +
      s.lines.exc.c0.toNat * 2 ^ 4 + s.lines.exc.c1.toNat * 2 ^ 5 + s.lines.exc.c2.toNat * 2 ^ 6 +
      s.lines.exc.c3.toNat * 2 ^ 7 + s.lines.rxLvl.c0.toNat * 2 ^ 8 + s.lines.rxLvl.c1.toNat * 2 ^ 9 +
      s.lines.rxLvl.c2.toNat * 2 ^ 10 + s.lines.rxLvl.c3.toNat * 2 ^ 11
  | .cpFail => s.cp.fail.toNat

/-- REG.READ (R79, R286): `RESULT` is the value of R286's table; nothing else changes. -/
def Obligations.RegReadReturns : Prop :=
  ∀ (reg : RegId) (s : State), s.Ready →
    exec (.regRead reg) s =
      .next { s with result := BitVec.ofNat 32 (regTable s reg), status := acceptedStatus 0x22 false s }

/-- The host's port (R32–R34, R287): `CMD` reads 0, `RESULT` as it stands, `STATUS` with the layout of R34. -/
def Obligations.HostPortReads : Prop :=
  ∀ s : State,
    s.hostRead .cmd = 0 ∧ s.hostRead .result = s.result ∧
      (s.hostRead .status).toNat =
        s.status.active.toNat + s.status.busyReject.toNat * 2 ^ 1 + s.status.illegal.toNat * 2 ^ 2 +
          s.status.parityErr.toNat * 2 ^ 3 + s.status.fault.toNat * 2 ^ 4 +
          (if s.status.faultCause = some .rxOverrun then 1 else 0) * 2 ^ 5 + s.status.lastOpc.toNat * 2 ^ 8

/-! ### Line levels and events -/

/-- The clock level after an input, by R41 and R340. -/
def Sys2Proof.clkAfter (i : Input) (s : State) : Bool :=
  match i with
  | .clkRise => true
  | .clkFall => false
  | .reset => true
  | .cmd _ => s.lines.clkLvl
  | .datSet _ => s.lines.clkLvl
  | .wake => s.lines.clkLvl
  | .rxSet _ _ => s.lines.clkLvl
  | .delayDone => s.lines.clkLvl
  | .bitTick => s.lines.clkLvl
  | .rollover => s.lines.clkLvl

/-- The peer's data level after an input, by R41 and R340. -/
def Sys2Proof.datAfter (i : Input) (s : State) : Bool :=
  match i with
  | .datSet v => v
  | .reset => true
  | .cmd _ => s.lines.datPeer
  | .clkRise => s.lines.datPeer
  | .clkFall => s.lines.datPeer
  | .wake => s.lines.datPeer
  | .rxSet _ _ => s.lines.datPeer
  | .delayDone => s.lines.datPeer
  | .bitTick => s.lines.datPeer
  | .rollover => s.lines.datPeer

/-- The sensors' levels after an input, by R41 and R340. -/
def Sys2Proof.rxAfter (i : Input) (s : State) : PerChannel Bool :=
  match i with
  | .rxSet ch v => s.lines.rxLvl.set ch v
  | .reset => PerChannel.all true
  | .cmd _ => s.lines.rxLvl
  | .clkRise => s.lines.rxLvl
  | .clkFall => s.lines.rxLvl
  | .datSet _ => s.lines.rxLvl
  | .wake => s.lines.rxLvl
  | .delayDone => s.lines.rxLvl
  | .bitTick => s.lines.rxLvl
  | .rollover => s.lines.rxLvl

/-- The state with its line levels after an input (R41). -/
def Sys2Proof.bookkept (i : Input) (s : State) : State :=
  { s with lines := { s.lines with clkLvl := clkAfter i s, datPeer := datAfter i s, rxLvl := rxAfter i s } }

/-- The CP-link inputs (R10, R229). -/
def Sys2Proof.isCpInput : Input → Bool
  | .clkRise => true
  | .clkFall => true
  | .datSet _ => true
  | .wake => true
  | .cmd _ => false
  | .reset => false
  | .rxSet _ _ => false
  | .delayDone => false
  | .bitTick => false
  | .rollover => false

/-- The STM inputs: the sensors' and the timer's (R10, R147). -/
def Sys2Proof.isStmInput : Input → Bool
  | .rxSet _ _ => true
  | .delayDone => true
  | .bitTick => true
  | .rollover => true
  | .cmd _ => false
  | .reset => false
  | .clkRise => false
  | .clkFall => false
  | .datSet _ => false
  | .wake => false

/-- The inputs that are not commands and not `Reset`. -/
def Sys2Proof.isEvent (i : Input) : Bool := isCpInput i || isStmInput i

/-! ### The CP-link engine -/

/-- The clock level after a real edge, with the engine and the flags as given (R41). -/
def Sys2Proof.withClk (v : Bool) (s : State) : State := { s with lines := { s.lines with clkLvl := v } }

/-- A CP command ended with `code`: `RESULT`, `ACTIVE` 0 and the idle engine, which is `CP_IDLE` with
`CP_OP` NONE and its other fields as they were (R13; assumption 5). -/
def Sys2Proof.endedCp (code : Word) (s : State) : State :=
  { s with result := code, status := { s.status with active := false }, cp := { s.cp with cps := .idle, op := .none } }

/-- R120: what the two waits of CP.WAITSTART consume, and that every other event is dropped: from
`CP_WS1` a data fall with the clock high qualifies and `Wake` ends with 0; from `CP_WS2` a clock fall
ends with 1. The engine's other fields at the end are the model's reading (assumption 5). With a CP
command in flight the STM engine is idle (State.EnginesOk). -/
def Obligations.WaitstartInputs : Prop :=
  ∀ s : State, s.status.fault = false → s.stm.sts = .idle →
    (s.cp.cps = .ws1 → s.lines.cpOe = false →
      takeInput .wake s = .next (endedCp 0 s) ∧
        (s.lines.datPeer = true → s.lines.clkLvl = true → takeInput (.datSet false) s =
          .next { s with lines := { s.lines with datPeer := false }, cp := { s.cp with cps := .ws2 } }) ∧
        ∀ i, isEvent i = true → i ≠ .wake → ¬(i = .datSet false ∧ s.lines.datPeer = true ∧ s.lines.clkLvl = true) →
          takeInput i s = .next (bookkept i s)) ∧
      (s.cp.cps = .ws2 →
        (s.lines.clkLvl = true → takeInput .clkFall s = .next (endedCp 1 (withClk false s))) ∧
          ∀ i, isEvent i = true → ¬(i = .clkFall ∧ s.lines.clkLvl = true) → takeInput i s = .next (bookkept i s))

/-- R126: in `CP_SYNC` the clock fall starts cycle 1 and does nothing else; the clock cannot rise, and the other CP inputs are dropped. -/
def Obligations.SyncWaitsForFall : Prop :=
  ∀ s : State, s.status.fault = false → s.cp.cps = .sync → s.lines.clkLvl = true →
    takeInput .clkFall s =
        .next { s with
          cp := { s.cp with cps := .xfer, cyc := 1 }
          lines := { s.lines with
            clkLvl := false
            cpOe := if s.cp.dir = .tx then true else false
            cpOut := if s.cp.dir = .tx then s.cp.shift.getLsbD 0 else s.lines.cpOut } } ∧
      takeInput .clkRise s = .next s ∧ takeInput .wake s = .next s ∧
      ∀ v, takeInput (.datSet v) s = .next { s with lines := { s.lines with datPeer := v } }

/-- The CP engine one cycle on. -/
def Sys2Proof.cycled (s : State) : CpEngine := { s.cp with cyc := s.cp.cyc + 1 }

/-- R127: the clock edges of cycles 1 to 9 of a transmit, and the rise of cycle 10. -/
def Obligations.TransmitCycles : Prop :=
  ∀ s : State, s.status.fault = false → s.cp.cps = .xfer → s.cp.dir = .tx →
    (s.lines.clkLvl = false → takeInput .clkRise s =
      .next { withClk true s with
        cp := { s.cp with ack := if s.cp.cyc = 10 then s.lines.datLine else s.cp.ack } }) ∧
      (s.lines.clkLvl = true → s.cp.cyc.toNat ≤ 7 → takeInput .clkFall s =
        .next { s with
          cp := cycled s, lines := { s.lines with clkLvl := false, cpOut := s.cp.shift.getLsbD s.cp.cyc.toNat } }) ∧
      (s.lines.clkLvl = true → s.cp.cyc = 8 → takeInput .clkFall s =
        .next { s with cp := cycled s, lines := { s.lines with clkLvl := false, cpOut := s.cp.par } }) ∧
      (s.lines.clkLvl = true → s.cp.cyc = 9 → takeInput .clkFall s =
        .next { s with cp := cycled s, lines := { s.lines with clkLvl := false, cpOe := false } })

/-- R128, R129 for CP.SENDBYTE: at `F_10` the command ends with 0 on an ACK and 2 on a NACK.
The idle engine at the end (`CP_OP` NONE, the other fields as they were) is the model's reading (assumption 5). -/
def Obligations.SendbyteEnds : Prop :=
  ∀ s : State, s.status.fault = false → s.cp.cps = .xfer → s.cp.dir = .tx → s.cp.cyc = 10 →
    s.cp.op = .sendbyte → s.lines.clkLvl = true →
    takeInput .clkFall s =
      .next { s with
        result := if s.cp.ack = false then 0 else 2
        status := { s.status with active := false }
        cp := { s.cp with cps := .idle, op := .none }
        lines := { s.lines with clkLvl := false } }

/-- The send of a byte begins with the clock low (R125, R126). -/
def Sys2Proof.sendingNext (b : Byte) (cp : CpEngine) (s : State) : State :=
  { s with
    cp := { cp with dir := .tx, ack := false, shift := b, par := parity b, cps := .xfer, cyc := 1 }
    lines := { s.lines with clkLvl := false, cpOe := true, cpOut := b.getLsbD 0 } }

/-- A CP command ends with `code` at a clock fall (R13); the idle engine is the model's reading (assumption 5). -/
def Sys2Proof.endedAtFall (code : Word) (cp : CpEngine) (s : State) : State :=
  endedCp code { s with cp := cp, lines := { s.lines with clkLvl := false } }

/-- R187: at `F_10` of a byte of CP.SENDMSG: an ACK moves to the next byte or ends the frame, a NACK
counts a failure and sends the byte again or abandons the frame at the fifth. The idle engine at the
two ends is the model's reading (assumption 5). -/
def Obligations.SendmsgByteDone : Prop :=
  ∀ s : State, s.status.fault = false → s.cp.cps = .xfer → s.cp.dir = .tx → s.cp.cyc = 10 →
    s.cp.op = .sendmsg → s.lines.clkLvl = true → s.SendmsgOk →
    (s.cp.ack = false →
      let cp := { s.cp with txi := s.cp.txi + 1 }
      takeInput .clkFall s =
        if cp.txi = cp.len then .next (endedAtFall 0 cp s)
        else .next (sendingNext (s.txBuf.get cp.txi.toNat) cp s)) ∧
      (s.cp.ack = true →
        let cp := { s.cp with fail := s.cp.fail + 1 }
        takeInput .clkFall s =
          if cp.fail = 5 then .next (endedAtFall 0 cp s)
          else .next (sendingNext (s.txBuf.get cp.txi.toNat) cp s))

/-- R141, R142: the clock edges of cycles 1 to 9 of a receive: data most significant bit first, the
sticky parity flag at `R_9`, the ACK or NACK from `F_9`; the rise of cycle 10 does nothing. -/
def Obligations.ReceiveCycles : Prop :=
  ∀ s : State, s.status.fault = false → s.cp.cps = .xfer → s.cp.dir = .rx →
    (s.lines.clkLvl = false → s.cp.cyc.toNat ≤ 8 → takeInput .clkRise s =
      .next { withClk true s with
        cp := { s.cp with
          shift := BitVec.ofNat 8 (2 * s.cp.shift.toNat + s.lines.datLine.toNat), par := s.cp.par ^^ s.lines.datLine } }) ∧
      (s.lines.clkLvl = false → s.cp.cyc = 9 → takeInput .clkRise s =
        .next { withClk true s with
          cp := { s.cp with pb := s.lines.datLine, mis := s.lines.datLine != s.cp.par }
          status := { s.status with parityErr := s.status.parityErr || (s.lines.datLine != s.cp.par) } }) ∧
      (s.lines.clkLvl = false → s.cp.cyc = 10 → takeInput .clkRise s = .next (withClk true s)) ∧
      (s.lines.clkLvl = true → s.cp.cyc.toNat ≤ 8 → takeInput .clkFall s =
        .next { withClk false s with cp := cycled s }) ∧
      (s.lines.clkLvl = true → s.cp.cyc = 9 → takeInput .clkFall s =
        .next { s with
          cp := cycled s, lines := { s.lines with clkLvl := false, cpOe := true, cpOut := s.cp.mis } })

/-- At `F_10` of a CP.RECVBYTE (R140, R145, R146) with room in the buffer: the byte is appended, the
line released, `RESULT` 0, parity mismatch or not; nothing else changes. The idle engine at the end
(`CP_OP` NONE, the other fields as they were) is the model's reading (assumption 5). -/
def Obligations.RecvbyteAppends : Prop :=
  ∀ s : State, s.status.fault = false → s.cp.cps = .xfer → s.cp.dir = .rx → s.cp.cyc = 10 →
    s.cp.op = .recvbyte → s.lines.clkLvl = true → s.rxIdx.toNat < 64 → s.BuffersOk →
    Ends (takeInput .clkFall s) fun t =>
      t = { s with
        result := 0, status := { s.status with active := false }
        cp := { s.cp with cps := .idle, op := .none }
        lines := { s.lines with clkLvl := false, cpOe := false }
        rxBuf := t.rxBuf, rxIdx := t.rxIdx } ∧
        t.rxIdx.toNat = s.rxIdx.toNat + 1 ∧
        ∀ i, t.rxBuf.get i = if i = s.rxIdx.toNat then s.cp.shift else s.rxBuf.get i

/-- R145, R312: an append with the buffer full stores nothing and faults: the cause is recorded, the
command is over without a result, the lines are released and both engines idle; nothing else changes.
That the fault is a next state is the model's reading (assumption 2). -/
def Obligations.OverrunFaults : Prop :=
  ∀ s : State, s.status.fault = false → s.cp.cps = .xfer → s.cp.dir = .rx → s.cp.cyc = 10 →
    s.lines.clkLvl = true → s.rxIdx = 64 →
    takeInput .clkFall s =
      .next { s with
        status := { s.status with fault := true, faultCause := some .rxOverrun, active := false }
        lines := { s.lines with clkLvl := false, cpOe := false, exc := ⟨false, false, false, false⟩ }
        cp := { s.cp with cps := .idle, op := .none }
        stm := { s.stm with sts := .idle, op := .none, edgeEn := false } }

/-- R182: at `F_10` of a byte of CP.WAITMSG: the byte is appended; with four bytes in, a length outside
6 to 64 ends the command with 1 and `RX_IDX` 0; the declared length reached ends it with 0; else the
next receive begins at once. The idle engine at the two ends is the model's reading (assumption 5). -/
def Obligations.WaitmsgByteDone : Prop :=
  ∀ s : State, s.status.fault = false → s.cp.cps = .xfer → s.cp.dir = .rx → s.cp.cyc = 10 →
    s.cp.op = .waitmsg → s.lines.clkLvl = true → s.rxIdx.toNat < 64 →
    let rx := s.rxBuf.set s.rxIdx.toNat s.cp.shift
    let n := s.rxIdx.toNat + 1
    let len := (rx.get 1).toNat
    let base := { s with rxBuf := rx, rxIdx := s.rxIdx + 1, lines := { s.lines with cpOe := false } }
    takeInput .clkFall s =
      if n = 4 ∧ (len < 6 ∨ 64 < len) then .next { endedAtFall 1 s.cp base with rxIdx := 0 }
      else if 4 ≤ n ∧ n = len then .next (endedAtFall 0 s.cp base)
      else .next { withClk false base with
        cp := { s.cp with
          dir := .rx, ack := false, shift := 0x00, par := false, pb := false, mis := false, cps := .xfer, cyc := 1 } }

/-- The bit a sent byte shows in clock cycle `k + 1` (R110): data bits, least significant first, then even parity. -/
def Sys2Proof.sentBit (v : Byte) (k : Nat) : Bool := if k < 8 then v.getLsbD k else parity v

/-- R110 for a sent byte, from the clock low: at the rise of each of the first nine cycles the line
carries its bit, driven by the block. -/
def Obligations.PeerReadsSentByte : Prop :=
  ∀ (v : Byte) (k : Nat) (s : State), k ≤ 8 → s.Ready → s.lines.clkLvl = false →
    Ends (runs (.cmd (encode (.cpSendbyte v)) :: clockCycles k ++ [.clkRise]) s) fun t =>
      t.lines.cpOe = true ∧ t.lines.datLine = sentBit v k ∧ t.status.active = true

/-- R130, R110: a whole CP.SENDBYTE of ten cycles ends with 0 on the peer's ACK, 2 on its NACK, the line released. -/
def Obligations.SendbyteRun : Prop :=
  ∀ (v : Byte) (nack : Bool) (s : State), s.Ready → s.lines.clkLvl = false →
    Ends (runs (.cmd (encode (.cpSendbyte v)) :: clockCycles 9 ++ (.datSet nack :: clockCycle)) s) fun t =>
      t.result = (if nack then 2 else 0) ∧ t.status = acceptedStatus 0x02 false s ∧ t.lines.cpOe = false ∧
        t.rxBuf = s.rxBuf ∧ t.rxIdx = s.rxIdx ∧ t.txBuf = s.txBuf ∧ t.stm = s.stm

/-- R110, R140–R145 for a whole received byte, from the clock low: the byte sent most significant bit
first is appended, `RESULT` is 0, and a wrong parity bit sets the sticky flag and is answered by a NACK
in cycle 10. -/
def Obligations.RecvbyteRun : Prop :=
  ∀ (d : Byte) (p : Bool) (s : State), s.Ready → s.lines.clkLvl = false → s.rxIdx.toNat < 64 → s.BuffersOk →
    Ends (runs (.cmd (encode .cpRecvbyte) :: peerByte d p) s) (fun u =>
        u.lines.cpOe = true ∧ u.lines.datLine = (p != parity d)) ∧
      Ends (runs (.cmd (encode .cpRecvbyte) :: peerByte d p ++ clockCycle) s) fun t =>
        t.result = 0 ∧ t.rxIdx.toNat = s.rxIdx.toNat + 1 ∧ t.lines.cpOe = false ∧ t.status.active = false ∧
          t.status.parityErr = (s.status.parityErr || (p != parity d)) ∧
          ∀ i, t.rxBuf.get i = if i = s.rxIdx.toNat then d else s.rxBuf.get i

/-- R314: in the states runs reach, only CP.RECVBYTE faults, at the end of a byte with `RX_IDX` = 64. -/
def Obligations.OnlyRecvbyteFaults : Prop :=
  ∀ (s t : State) (i : Input), s.Inv → s.status.fault = false → takeInput i s = .next t → t.status.fault = true →
    i = .clkFall ∧ s.cp.op = .recvbyte ∧ s.cp.cyc = 10 ∧ s.rxIdx = 64 ∧ t.result = s.result ∧ t.rxBuf = s.rxBuf

/-! ### The STM engine -/

/-- R216: in `STM_EXCITING` `DelayDone` arms the engine; an edge before it is dropped but for its level. -/
def Obligations.DelayDoneArms : Prop :=
  ∀ s : State, s.status.fault = false → s.stm.sts = .exciting →
    takeInput .delayDone s = .next { s with stm := { s.stm with sts := .armed, edgeEn := true, tocnt := 0 } } ∧
      ∀ ch v, takeInput (.rxSet ch v) s = .next { s with lines := { s.lines with rxLvl := s.lines.rxLvl.set ch v } }

/-- R211, R218: in `STM_ARMED` a falling edge of the selected channel starts a character; a change of
another channel's line changes its level and nothing else. -/
def Obligations.StartBitSelected : Prop :=
  ∀ (ch : Channel) (s : State), s.status.fault = false → s.stm.sts = .armed → s.stm.edgeEn = true →
    s.lines.rxLvl.get ch = true →
    takeInput (.rxSet ch false) s =
      .next { s with
        lines := { s.lines with rxLvl := s.lines.rxLvl.set ch false }
        stm := if ch = s.stm.ch then { s.stm with sts := .sampling, edgeEn := false, k := 9, shift := 0x00 } else s.stm }

/-- R222, R226: a `BitTick` in `STM_SAMPLING` puts the line's level in data bit `9 − STM_K`, or, at the
stop bit, stores the character in the ring whatever the level and arms the engine again. -/
def Obligations.BitTickSamples : Prop :=
  ∀ s : State, s.status.fault = false → s.stm.sts = .sampling → s.stmIdx.toNat < 20 → s.BuffersOk →
    (2 ≤ s.stm.k.toNat → s.stm.k.toNat ≤ 9 →
      Ends (takeInput .bitTick s) fun t =>
        t = { s with stm := { s.stm with shift := t.stm.shift, k := s.stm.k - 1 } } ∧
          ∀ j, j < 8 → t.stm.shift.getLsbD j =
            if j = 9 - s.stm.k.toNat then s.lines.rxLvl.get s.stm.ch else s.stm.shift.getLsbD j) ∧
      (s.stm.k = 1 →
        Ends (takeInput .bitTick s) fun t =>
          t = { s with
            stm := { s.stm with k := 9, sts := .armed, edgeEn := true, lastv := true, lastb := s.stm.shift }
            stmBuf := t.stmBuf
            stmIdx := t.stmIdx } ∧
            t.stmIdx.toNat = (s.stmIdx.toNat + 1) % 20 ∧
            ∀ i, t.stmBuf.get i = if i = s.stmIdx.toNat then s.stm.shift else s.stmBuf.get i)

/-- R114, R222, R226 for a whole character on the selected channel: ten inputs after which the byte is
in the ring at the old index, and the engine is armed for the next one. -/
def Obligations.CharacterReceived : Prop :=
  ∀ (b : Byte) (s : State), s.status.fault = false → s.stm.sts = .armed → s.stm.edgeEn = true →
    s.lines.rxLvl.get s.stm.ch = true → s.stmIdx.toNat < 20 → s.BuffersOk →
    Ends (runs (sensorChar s.stm.ch b) s) fun t =>
      t.stmBuf.get s.stmIdx.toNat = b ∧ (∀ i, i ≠ s.stmIdx.toNat → t.stmBuf.get i = s.stmBuf.get i) ∧
        t.stmIdx.toNat = (s.stmIdx.toNat + 1) % 20 ∧ t.stm.sts = .armed ∧ t.stm.edgeEn = true ∧
        t.stm.lastv = true ∧ t.stm.lastb = b ∧ t.stm.tocnt = s.stm.tocnt

/-- R219: a `Rollover` in `STM_ARMED` counts; a stored line feed ends the wait, else the bound does, else it goes on. -/
def Obligations.RolloverCounts : Prop :=
  ∀ s : State, s.status.fault = false → s.stm.sts = .armed →
    let t := { s with stm := { s.stm with tocnt := s.stm.tocnt + 1 } }
    takeInput .rollover s =
      if s.stm.lastv = true ∧ s.stm.lastb = 0x0A then .next (finishStm params false t)
      else if s.stm.tocnt + 1 = s.stm.nmax then .next (finishStm params true t)
      else .next t

/-- R228, R236, R240: `finish_stm` powers the channel off, ends the command with 2 on a timeout, 1 on a
checksum fail and 0 otherwise; only on 0 does STM.MEASURE parse, or STM.TYPEPROBE write the byte after
the first CR into the channel's registry entry. -/
def Obligations.FinishStmEnds : Prop :=
  ∀ (s : State) (timedOut : Bool),
    let t := finishStm params timedOut s
    t.status = { s.status with active := false } ∧
      t.stm = { s.stm with sts := .idle, op := .none, edgeEn := false } ∧
      t.lines = { s.lines with exc := s.lines.exc.set s.stm.ch false } ∧
      t.result = (if timedOut then 2 else if checksumPasses s.stmBuf = false then 1 else 0) ∧
      (t.result ≠ 0 → t.temp = s.temp ∧ t.soil = s.soil ∧ t.stype = s.stype) ∧
      (t.result = 0 → s.stm.op = .measure →
        t.temp = (parse params s).temp ∧ t.soil = (parse params s).soil ∧ t.stype = s.stype) ∧
      (t.result = 0 → s.stm.op = .typeprobe →
        t.temp = s.temp ∧ t.soil = s.soil ∧
          ∃ n, n ≤ 17 ∧ s.stmBuf.get n = 0x0D ∧ (∀ j, j < n → s.stmBuf.get j ≠ 0x0D) ∧
            t.stype = s.stype.set s.stm.ch (s.stmBuf.get (n + 1))) ∧
      t.cp = s.cp ∧ t.stmBuf = s.stmBuf ∧ t.stmIdx = s.stmIdx ∧ t.rxBuf = s.rxBuf ∧ t.rxIdx = s.rxIdx ∧
      t.txBuf = s.txBuf ∧ t.outBuf = s.outBuf ∧ t.inbox = s.inbox

/-- R219, R230, R240 with no reply at all: after the warm-up and ten rollovers STM.MEASURE ends with 2,
the channel's power off and the readings as before. -/
def Obligations.MeasureTimesOut : Prop :=
  ∀ (ch : Channel) (s : State), s.Ready →
    Ends (runs (.cmd (encode (.stmMeasure ch)) :: .delayDone :: List.replicate 10 .rollover) s) fun t =>
      t.result = 2 ∧ t.status = acceptedStatus 0x10 false s ∧ t.lines.exc.get ch = false ∧ t.stm.tocnt = 10 ∧
        t.stm.sts = .idle ∧ t.temp = s.temp ∧ t.soil = s.soil ∧ t.stype = s.stype

/-! ### The whole machine -/

/-- R41: the line levels follow their inputs in every engine state and nothing else moves them, and an
input that does not change a level changes nothing. -/
def Obligations.LineBookkeeping : Prop :=
  (∀ (i : Input) (s t : State), takeInput i s = .next t →
      t.lines.clkLvl = clkAfter i s ∧ t.lines.datPeer = datAfter i s ∧ t.lines.rxLvl = rxAfter i s) ∧
    ∀ s : State,
      (s.lines.clkLvl = true → takeInput .clkRise s = .next s) ∧
        (s.lines.clkLvl = false → takeInput .clkFall s = .next s) ∧
        (∀ v, s.lines.datPeer = v → takeInput (.datSet v) s = .next s) ∧
        ∀ ch v, s.lines.rxLvl.get ch = v → takeInput (.rxSet ch v) s = .next s

/-- R307's table, by input: the states that name it, and the level or edge they name it with. -/
def Sys2Proof.named (i : Input) (s : State) : Bool :=
  match i with
  | .cmd _ => true
  | .reset => true
  | .clkRise => s.cp.cps = .xfer
  | .clkFall => s.cp.cps = .ws2 || s.cp.cps = .sync || s.cp.cps = .xfer
  | .datSet v => s.cp.cps = .ws1 && !v && s.lines.datPeer && s.lines.clkLvl
  | .wake => s.cp.cps = .ws1
  | .rxSet ch v => s.stm.sts = .armed && s.stm.edgeEn && ch = s.stm.ch && !v && s.lines.rxLvl.get ch
  | .delayDone => s.stm.sts = .exciting
  | .bitTick => s.stm.sts = .sampling
  | .rollover => s.stm.sts = .armed

/-- R307: in every state, an event that its table does not name for the state, or any event in a fault,
changes the line levels and nothing else; so does every event with both engines idle. In the states
runs reach this drops the STM inputs, `Wake` and the data line during a byte transfer (R147) and every
CP-link input during an STM command (R229). -/
def Obligations.EventsDropped : Prop :=
  (∀ (i : Input) (s : State), s.status.fault = true ∧ isEvent i = true ∨ named i s = false →
      takeInput i s = .next (bookkept i s)) ∧
    (∀ (i : Input) (s : State), s.cp.cps = .idle → s.stm.sts = .idle → isEvent i = true →
      takeInput i s = .next (bookkept i s)) ∧
    (∀ (i : Input) (s : State), s.Inv → s.cp.cps = .sync ∨ s.cp.cps = .xfer →
      isStmInput i = true ∨ i = .wake ∨ (∃ v, i = .datSet v) → takeInput i s = .next (bookkept i s)) ∧
    ∀ (i : Input) (s : State), s.Inv → s.stm.sts ≠ .idle → isCpInput i = true →
      takeInput i s = .next (bookkept i s)

/-- R313, R340, R341: in a fault nothing but `Reset` changes anything but line levels, `FAULT` and its
cause stay, and the run has no result (its standing is the model's, assumption 2); `Reset` clears them. -/
def Obligations.FaultLeftOnlyByReset : Prop :=
  ∀ (i : Input) (s : State), s.status.fault = true →
    (i ≠ .reset → takeInput i s = .next (bookkept i s) ∧
      (bookkept i s).outcome = .faulted s.status.faultCause) ∧
      (i = .reset → Ends (takeInput i s) fun t =>
        t.status.fault = false ∧ t.status.faultCause = none ∧ t.outcome = .ended 0)

/-- R341: no input but `Reset` clears `PARITY_ERR`, `FAULT` or `FAULT_CAUSE`. -/
def Obligations.StickyFlags : Prop :=
  ∀ (i : Input) (s t : State), i ≠ .reset → takeInput i s = .next t →
    (s.status.parityErr = true → t.status.parityErr = true) ∧
      (s.status.fault = true → t.status.fault = true ∧ t.status.faultCause = s.status.faultCause)

/-- R52, R60, R61: who writes `TEMP` and `SOIL`, the registry and `OUT_BUF`. That the registry is
written by STM.TYPEPROBE alone is said of states in which `STM_OP` and `STS` go together, as `State.Inv`
has them. -/
def Obligations.WritersOfOutputs : Prop :=
  ∀ (i : Input) (s t : State), i ≠ .reset → takeInput i s = .next t →
    ((t.temp ≠ s.temp ∨ t.soil ≠ s.soil) →
      i = .cmd (encode .stmParse) ∨ (i = .rollover ∧ s.stm.op = .measure ∧ t.result = 0)) ∧
      (s.StmOk → t.stype ≠ s.stype → i = .rollover ∧ s.stm.op = .typeprobe ∧ t.result = 0) ∧
      (t.outBuf ≠ s.outBuf →
        (i = .cmd (encode .cpGrabmsg) ∧ t.result = 0) ∨ ∃ idx v, i = .cmd (encode (.bufWrite .out idx v)))

/-- `RESULT` changes only when a command ends, which leaves `ACTIVE` 0 (R13, R33); a fault writes none (R312). -/
def Obligations.ResultWrittenAtEnd : Prop :=
  ∀ (i : Input) (s t : State), i ≠ .reset → takeInput i s = .next t → t.result ≠ s.result →
    t.status.active = false ∧ t.status.fault = false ∧ s.status.fault = false

/-- What the invariant says between commands: with no command in flight the data line is released,
every channel is unpowered, the edge interrupt is off, the timer has no role and no byte transfer is in
progress (R49, R56, R110, R240; InvariantKept carries it to the states runs reach). -/
def Obligations.IdleLinesReleased : Prop :=
  ∀ s : State, s.Inv → s.status.active = false →
    s.lines.cpOe = false ∧ s.lines.exc = ⟨false, false, false, false⟩ ∧ s.stm.edgeEn = false ∧
      s.stm.timerRole = none ∧ s.cp.txBusy = false ∧ s.cp.rxBusy = false

/-- R68, R340: `Reset` is taken in every state and gives every register its reset value. That it leaves
the inputs still to come is the model's choice (assumption 1). -/
def Obligations.ResetValues : Prop :=
  (∀ s : State, takeInput .reset s = .next { State.reset with inbox := s.inbox }) ∧
    State.reset.hostRead .result = 0 ∧ State.reset.hostRead .status = 0 ∧
    State.reset.lines = ⟨true, true, false, true, ⟨true, true, true, true⟩, ⟨false, false, false, false⟩⟩ ∧
    State.reset.cp = ⟨.idle, .none, .rx, 1, 0, false, false, false, false, 0, 0, 0⟩ ∧
    State.reset.stm = ⟨.idle, .none, .c0, 0, 0, 9, 0, false, 0, false⟩ ∧
    (∀ b i, (State.reset.buf b).get i = 0x00) ∧ State.reset.rxIdx = 0 ∧ State.reset.stmIdx = 0 ∧
    State.reset.temp = 0 ∧ State.reset.soil = 0 ∧
    ∀ ch, State.reset.stype.get ch = params.sensorTypeDefault

/-- The reset state meets the invariant. -/
def Obligations.ResetMeetsInvariant : Prop := State.reset.Inv

/-- Every step from a state that meets the invariant ends in a next state that meets it: no step stops
the machine (R71, R129, R146, R183), and buffers, counters, engines, drives and flags stay in their ranges. That an idle CP engine has
`CP_OP` NONE after `finish` is the model's reading (assumption 5). -/
def Obligations.InvariantKept : Prop :=
  ∀ s : State, s.Inv → Ends (step s) fun t => t.Inv

/-- Every step keeps the buffers in their canonical form, from every state whose buffers are in it (R70, R71). -/
def Obligations.BuffersStayCanonical : Prop :=
  ∀ s t : State, s.BuffersOk → step s = .next t → t.BuffersOk
end

