-- ==== Sys2Proof/Laws/Decode.lean ====
section
/-! SUPPORT. The laws of the command word's fields and of the decoder's parts (30_encoding R90–R94). -/

namespace Sys2Proof

/-- The fields of a word made from four fields. -/
theorem fields_wordOf (o a b c : Byte) :
    fieldOpc (wordOf o a b c) = o ∧ fieldA (wordOf o a b c) = a ∧ fieldB (wordOf o a b c) = b ∧
      fieldC (wordOf o a b c) = c := by
  refine ⟨?_, ?_, ?_, ?_⟩ <;>
  · simp only [fieldOpc, fieldA, fieldB, fieldC, wordOf]
    ext i hi
    simp only [BitVec.getElem_extractLsb', BitVec.getLsbD_append]
    interval_cases i <;> simp

/-- A word is made of its four fields. -/
theorem wordOf_fields (w : Word) : wordOf (fieldOpc w) (fieldA w) (fieldB w) (fieldC w) = w := by
  simp only [fieldOpc, fieldA, fieldB, fieldC, wordOf]
  ext i hi
  simp only [BitVec.getElem_append, BitVec.getElem_extractLsb']
  interval_cases i <;> simp [BitVec.getLsbD_eq_getElem]

theorem ifUnused_ok {unused : List Byte} {r : Except DecodeError Instr} {i : Instr} (h : ifUnused unused r = .ok i) :
    (∀ x ∈ unused, x = 0) ∧ r = .ok i := by
  unfold ifUnused at h
  split at h
  · rename_i h'; exact ⟨by simpa using h', h⟩
  · cases h

theorem ifLegal_ok {j i : Instr} (h : ifLegal j = .ok i) : j.wellFormed = true ∧ j = i := by
  unfold ifLegal at h
  split at h
  · exact ⟨‹_›, by injection h⟩
  · cases h

/-- A sequence of two decoding parts succeeds when both do. -/
theorem bind_ok {α β ε : Type} {x : Except ε α} {f : α → Except ε β} {b : β} (h : x.bind f = .ok b) :
    ∃ a, x = .ok a ∧ f a = .ok b := by
  cases x with
  | error e => cases h
  | ok a => exact ⟨a, rfl, h⟩

theorem channelOf_ok {b : Byte} {c : Channel} (h : channelOf b = .ok c) : c.code = b := by
  unfold channelOf at h; split at h <;> cases h <;> rfl

theorem bufOf_ok {b : Byte} {c : BufId} (h : bufOf b = .ok c) : c.code = b := by
  unfold bufOf at h; split at h <;> cases h <;> rfl

theorem modeOf_ok {b : Byte} {m : CrcMode} (h : modeOf b = .ok m) : m.code = b := by
  unfold modeOf at h; split at h <;> cases h <;> rfl

theorem regOf_ok {b : Byte} {r : RegId} (h : regOf b = .ok r) : r.code = b := by
  unfold regOf at h; split at h <;> cases h <;> rfl

theorem channelOf_code (c : Channel) : channelOf c.code = .ok c := by cases c <;> rfl

theorem bufOf_code (b : BufId) : bufOf b.code = .ok b := by cases b <;> rfl

theorem modeOf_code (m : CrcMode) : modeOf m.code = .ok m := by cases m <;> rfl

theorem regOf_code (r : RegId) : regOf r.code = .ok r := by
  cases r with
  | stype c => cases c <;> rfl
  | _ => rfl

end Sys2Proof
end

