-- ==== Sys2Proof/Laws/Memory.lean ====
section
/-! SUPPORT. The laws of buffer contents: read after write, the canonical form, and that it is canonical. -/

namespace Sys2Proof.Machine

@[simp] theorem Memory.get_nil (a : Nat) : Memory.get [] a = unwritten := rfl

theorem Memory.get_cons (x : Nat) (v : Byte) (rest : Memory) (a : Nat) :
    Memory.get ((x, v) :: rest) a = if x = a then v else Memory.get rest a := rfl

/-- An index that no cell lists reads as unwritten. -/
theorem Memory.get_of_not_listed {m : Memory} {a : Nat} (h : ∀ c ∈ m, c.1 ≠ a) : m.get a = unwritten := by
  induction m with
  | nil => rfl
  | cons c rest ih =>
    obtain ⟨x, v⟩ := c
    rw [Memory.get_cons, if_neg (h (x, v) (by simp))]
    exact ih fun c hc => h c (List.mem_cons_of_mem _ hc)

/-- Reading the cell put in front of a list that does not list its index. -/
theorem Memory.get_cellOf_append (a : Nat) (b : Byte) (rest : Memory) (i : Nat)
    (h : ∀ c ∈ rest, c.1 ≠ a) :
    Memory.get (cellOf a b ++ rest) i = if a = i then b else rest.get i := by
  unfold cellOf
  by_cases hb : b = unwritten
  · rw [if_pos hb]
    by_cases hi : a = i
    · subst hi; simp [hb, Memory.get_of_not_listed h]
    · simp [hi]
  · rw [if_neg hb]; rfl

/-- In a sorted list every later cell has a greater index than the first. -/
theorem Memory.lt_of_sorted {x : Nat} {v : Byte} {rest : Memory}
    (h : List.Pairwise (fun p q : Host.Cell => p.1 < q.1) ((x, v) :: rest)) : ∀ c ∈ rest, x < c.1 := by
  intro c hc
  exact (List.pairwise_cons.mp h).1 c hc

/-- Read after write at every index of a sorted list. -/
theorem Memory.get_set_of_sorted {m : Memory} (h : m.Pairwise (fun x y => x.1 < y.1)) (a : Nat) (b : Byte) (i : Nat) :
    (m.set a b).get i = if a = i then b else m.get i := by
  induction m with
  | nil => simpa [Memory.set] using Memory.get_cellOf_append a b [] i (by simp)
  | cons c rest ih =>
    obtain ⟨x, v⟩ := c
    have hlt := Memory.lt_of_sorted h
    have ih := ih (List.pairwise_cons.mp h).2
    simp only [Memory.set]
    split
    · rename_i hax
      refine Memory.get_cellOf_append a b _ i fun c hc => ?_
      rcases List.mem_cons.mp hc with rfl | hc
      · exact Nat.ne_of_gt hax
      · exact Nat.ne_of_gt (Nat.lt_trans hax (hlt c hc))
    · split
      · rename_i _ hax
        subst hax
        rw [Memory.get_cellOf_append a b rest i fun c hc => Nat.ne_of_gt (hlt c hc), Memory.get_cons]
        split <;> simp_all
      · rename_i _ hax
        rw [Memory.get_cons, Memory.get_cons, ih]
        by_cases hxi : x = i
        · subst hxi; simp [hax]
        · simp [hxi]

/-- Read after write at the same index. -/
theorem Memory.get_set_self {cap : Nat} {m : Memory} (h : m.wf cap) (a : Nat) (b : Byte) : (m.set a b).get a = b := by
  rw [Memory.get_set_of_sorted h.1, if_pos rfl]

/-- A write leaves every other index alone. -/
theorem Memory.get_set_ne {cap : Nat} {m : Memory} (h : m.wf cap) {a i : Nat} (b : Byte) (hne : i ≠ a) :
    (m.set a b).get i = m.get i := by
  rw [Memory.get_set_of_sorted h.1, if_neg (Ne.symm hne)]

theorem cellOf_mem {a : Nat} {b : Byte} {c : Host.Cell} (h : c ∈ cellOf a b) : c = (a, b) ∧ b ≠ unwritten := by
  unfold cellOf at h
  split at h <;> simp_all

/-- A cell of the memory after a write is the written one or an old one. -/
theorem Memory.mem_set {m : Memory} {a : Nat} {b : Byte} {c : Host.Cell} (h : c ∈ m.set a b) :
    (c = (a, b) ∧ b ≠ unwritten) ∨ c ∈ m := by
  induction m with
  | nil => exact .inl (cellOf_mem h)
  | cons d rest ih =>
    obtain ⟨x, v⟩ := d
    simp only [Memory.set] at h
    split at h
    · rcases List.mem_append.mp h with h | h
      · exact .inl (cellOf_mem h)
      · exact .inr h
    · split at h
      · rcases List.mem_append.mp h with h | h
        · exact .inl (cellOf_mem h)
        · exact .inr (List.mem_cons_of_mem _ h)
      · rcases List.mem_cons.mp h with h | h
        · exact .inr (by simp [h])
        · exact (ih h).imp_right (List.mem_cons_of_mem _)

/-- A list that begins with a cell of a lower index stays sorted. -/
theorem cellOf_append_sorted {a : Nat} {b : Byte} {rest : Memory} (h : rest.Pairwise (fun x y => x.1 < y.1))
    (hlt : ∀ c ∈ rest, a < c.1) : (cellOf a b ++ rest).Pairwise (fun x y : Host.Cell => x.1 < y.1) := by
  unfold cellOf
  split
  · exact h
  · exact List.pairwise_cons.mpr ⟨hlt, h⟩

theorem Memory.set_sorted {m : Memory} (h : m.Pairwise (fun x y => x.1 < y.1)) (a : Nat) (b : Byte) :
    (m.set a b).Pairwise (fun x y : Host.Cell => x.1 < y.1) := by
  induction m with
  | nil => simpa [Memory.set] using cellOf_append_sorted (a := a) (b := b) List.Pairwise.nil (by simp)
  | cons c rest ih =>
    obtain ⟨x, v⟩ := c
    have hlt := Memory.lt_of_sorted h
    simp only [Memory.set]
    split
    · rename_i hax
      refine cellOf_append_sorted h fun c hc => ?_
      rcases List.mem_cons.mp hc with rfl | hc
      · exact hax
      · exact Nat.lt_trans hax (hlt c hc)
    · split
      · rename_i _ hax
        subst hax
        exact cellOf_append_sorted (List.pairwise_cons.mp h).2 hlt
      · refine List.pairwise_cons.mpr ⟨fun c hc => ?_, ih (List.pairwise_cons.mp h).2⟩
        rcases Memory.mem_set hc with ⟨rfl, _⟩ | hc
        · change x < a; omega
        · exact hlt c hc

/-- A write within the capacity keeps the canonical form. -/
theorem Memory.set_wf {cap : Nat} {m : Memory} (h : m.wf cap) {a : Nat} (ha : a < cap) (b : Byte) : (m.set a b).wf cap := by
  refine ⟨Memory.set_sorted h.1 a b, fun c hc => ?_⟩
  rcases Memory.mem_set hc with ⟨rfl, hb⟩ | hc
  · exact ⟨ha, hb⟩
  · exact h.2 c hc

/-- The empty buffer is in the canonical form. -/
theorem Memory.nil_wf (cap : Nat) : Memory.wf cap [] := by simp [Memory.wf]

/-- A run of writes within the capacity keeps the canonical form. -/
theorem Memory.setList_wf {cap : Nat} (bs : List Byte) {m : Memory} (h : m.wf cap) {a : Nat} (ha : a + bs.length ≤ cap) :
    (m.setList a bs).wf cap := by
  induction bs generalizing m a with
  | nil => exact h
  | cons b bs ih =>
    simp only [List.length_cons] at ha
    exact ih (Memory.set_wf h (show a < cap by omega) b) (show a + 1 + bs.length ≤ cap by omega)

/-- Read after a run of writes: the byte written at an index of the run, the old byte elsewhere. -/
theorem Memory.get_setList {cap : Nat} (bs : List Byte) {m : Memory} (h : m.wf cap) {a : Nat} (ha : a + bs.length ≤ cap)
    (i : Nat) : (m.setList a bs).get i = if _h : a ≤ i ∧ i < a + bs.length then bs[i - a]'(by omega) else m.get i := by
  induction bs generalizing m a with
  | nil => simp only [Memory.setList, List.length_nil]; split <;> [omega; rfl]
  | cons b bs ih =>
    simp only [List.length_cons] at ha ⊢
    have := ih (Memory.set_wf h (show a < cap by omega) b) (a := a + 1) (by omega)
    rw [Memory.setList, this, Memory.get_set_of_sorted h.1]
    by_cases hi : a = i
    · subst hi
      rw [dif_neg (by omega), dif_pos (by omega), if_pos rfl]
      simp
    · by_cases hr : a + 1 ≤ i ∧ i < a + 1 + bs.length
      · rw [dif_pos hr, dif_pos (by omega)]
        have : i - a = (i - (a + 1)) + 1 := by omega
        simp [this]
      · rw [dif_neg hr, dif_neg (by omega), if_neg hi]

@[simp] theorem Memory.slice_length (m : Memory) (a n : Nat) : (m.slice a n).length = n := by
  simp [Memory.slice]

@[simp] theorem Memory.slice_getElem (m : Memory) (a n i : Nat) (h : i < (m.slice a n).length) :
    (m.slice a n)[i] = m.get (a + i) := by
  simp [Memory.slice]

/-- Two slices agree when their bytes do. -/
theorem Memory.slice_congr {m m' : Memory} {a n : Nat} (h : ∀ i, a ≤ i → i < a + n → m.get i = m'.get i) :
    m.slice a n = m'.slice a n := by
  refine List.ext_getElem (by simp) fun i h1 h2 => ?_
  simp only [Memory.slice_getElem]
  simp only [Memory.slice_length] at h1
  exact h _ (by omega) (by omega)

/-- A listed byte of a canonical memory is read back. -/
theorem Memory.get_of_mem {m : Memory} (h : m.Pairwise (fun x y => x.1 < y.1)) {c : Host.Cell} (hc : c ∈ m) :
    m.get c.1 = c.2 := by
  induction m with
  | nil => simp at hc
  | cons d rest ih =>
    obtain ⟨x, v⟩ := d
    rcases List.mem_cons.mp hc with rfl | hc
    · simp [Memory.get_cons]
    · rw [Memory.get_cons, if_neg (Nat.ne_of_lt (Memory.lt_of_sorted h c hc)), ih (List.pairwise_cons.mp h).2 hc]

/-- Sorted lists of cells with the same members are the same. -/
theorem sorted_ext {m m' : Memory} (h : m.Pairwise (fun x y => x.1 < y.1)) (h' : m'.Pairwise (fun x y => x.1 < y.1))
    (heq : ∀ c, c ∈ m ↔ c ∈ m') : m = m' := by
  have asym : ∀ a b : Host.Cell, a.1 < b.1 → b.1 < a.1 → a = b := fun a b h1 h2 => absurd h1 (Nat.lt_asymm h2)
  have hn : ∀ {l : Memory}, l.Pairwise (fun x y : Host.Cell => x.1 < y.1) → l.Nodup := fun hl =>
    hl.imp fun hlt heq => by simp [heq] at hlt
  exact List.Perm.eq_of_pairwise (fun a b _ _ => asym a b) h h' ((List.perm_ext_iff_of_nodup (hn h) (hn h')).mpr heq)

/-- The form is canonical: memories that read alike everywhere are equal. -/
theorem Memory.ext_of_wf {cap : Nat} {m m' : Memory} (h : m.wf cap) (h' : m'.wf cap)
    (heq : ∀ i, m.get i = m'.get i) : m = m' := by
  have key : ∀ {m m' : Memory}, m.wf cap → m'.wf cap → (∀ i, m.get i = m'.get i) → ∀ c ∈ m, c ∈ m' := by
    intro m m' h h' heq c hc
    by_contra hn
    have h1 := Memory.get_of_mem h.1 hc
    have h2 := heq c.1
    by_cases hl : ∃ d ∈ m', d.1 = c.1
    · obtain ⟨d, hd, hdc⟩ := hl
      have h3 := Memory.get_of_mem h'.1 hd
      rw [hdc] at h3
      exact hn (by rwa [show c = d from Prod.ext hdc.symm (by rw [← h1, h2, h3])])
    · rw [Memory.get_of_not_listed (m := m') fun d hd he => hl ⟨d, hd, he⟩] at h2
      exact (h.2 c hc).2 (by rw [← h1, h2])
  exact sorted_ext h.1 h'.1 fun c => ⟨key h h' heq c, key h' h (fun i => (heq i).symm) c⟩

end Sys2Proof.Machine
end

