-- ==== Sys2Proof/Laws/State.lean ====
section
/-! SUPPORT. What each update of the state leaves in each field: one lemma per field per update. -/

namespace Sys2Proof.Machine

@[simp] theorem rejectBusy_result (s : State) : (rejectBusy s).result = s.result := rfl
@[simp] theorem rejectBusy_status (s : State) :
    (rejectBusy s).status = { s.status with busyReject := true, illegal := false } := rfl
@[simp] theorem rejectBusy_lines (s : State) : (rejectBusy s).lines = s.lines := rfl
@[simp] theorem rejectBusy_cp (s : State) : (rejectBusy s).cp = s.cp := rfl
@[simp] theorem rejectBusy_stm (s : State) : (rejectBusy s).stm = s.stm := rfl
@[simp] theorem rejectBusy_rxBuf (s : State) : (rejectBusy s).rxBuf = s.rxBuf := rfl
@[simp] theorem rejectBusy_rxIdx (s : State) : (rejectBusy s).rxIdx = s.rxIdx := rfl
@[simp] theorem rejectBusy_txBuf (s : State) : (rejectBusy s).txBuf = s.txBuf := rfl
@[simp] theorem rejectBusy_outBuf (s : State) : (rejectBusy s).outBuf = s.outBuf := rfl
@[simp] theorem rejectBusy_stmBuf (s : State) : (rejectBusy s).stmBuf = s.stmBuf := rfl
@[simp] theorem rejectBusy_stmIdx (s : State) : (rejectBusy s).stmIdx = s.stmIdx := rfl
@[simp] theorem rejectBusy_temp (s : State) : (rejectBusy s).temp = s.temp := rfl
@[simp] theorem rejectBusy_soil (s : State) : (rejectBusy s).soil = s.soil := rfl
@[simp] theorem rejectBusy_stype (s : State) : (rejectBusy s).stype = s.stype := rfl
@[simp] theorem rejectBusy_inbox (s : State) : (rejectBusy s).inbox = s.inbox := rfl

@[simp] theorem rejectIllegal_result (s : State) : (rejectIllegal s).result = s.result := rfl
@[simp] theorem rejectIllegal_status (s : State) :
    (rejectIllegal s).status = { s.status with illegal := true, busyReject := false } := rfl
@[simp] theorem rejectIllegal_lines (s : State) : (rejectIllegal s).lines = s.lines := rfl
@[simp] theorem rejectIllegal_cp (s : State) : (rejectIllegal s).cp = s.cp := rfl
@[simp] theorem rejectIllegal_stm (s : State) : (rejectIllegal s).stm = s.stm := rfl
@[simp] theorem rejectIllegal_rxBuf (s : State) : (rejectIllegal s).rxBuf = s.rxBuf := rfl
@[simp] theorem rejectIllegal_rxIdx (s : State) : (rejectIllegal s).rxIdx = s.rxIdx := rfl
@[simp] theorem rejectIllegal_txBuf (s : State) : (rejectIllegal s).txBuf = s.txBuf := rfl
@[simp] theorem rejectIllegal_outBuf (s : State) : (rejectIllegal s).outBuf = s.outBuf := rfl
@[simp] theorem rejectIllegal_stmBuf (s : State) : (rejectIllegal s).stmBuf = s.stmBuf := rfl
@[simp] theorem rejectIllegal_stmIdx (s : State) : (rejectIllegal s).stmIdx = s.stmIdx := rfl
@[simp] theorem rejectIllegal_temp (s : State) : (rejectIllegal s).temp = s.temp := rfl
@[simp] theorem rejectIllegal_soil (s : State) : (rejectIllegal s).soil = s.soil := rfl
@[simp] theorem rejectIllegal_stype (s : State) : (rejectIllegal s).stype = s.stype := rfl
@[simp] theorem rejectIllegal_inbox (s : State) : (rejectIllegal s).inbox = s.inbox := rfl

@[simp] theorem accept_result (opc : Byte) (s : State) : (accept opc s).result = s.result := rfl
@[simp] theorem accept_status (opc : Byte) (s : State) :
    (accept opc s).status = { s.status with busyReject := false, illegal := false, lastOpc := opc } := rfl
@[simp] theorem accept_lines (opc : Byte) (s : State) : (accept opc s).lines = s.lines := rfl
@[simp] theorem accept_cp (opc : Byte) (s : State) : (accept opc s).cp = s.cp := rfl
@[simp] theorem accept_stm (opc : Byte) (s : State) : (accept opc s).stm = s.stm := rfl
@[simp] theorem accept_rxBuf (opc : Byte) (s : State) : (accept opc s).rxBuf = s.rxBuf := rfl
@[simp] theorem accept_rxIdx (opc : Byte) (s : State) : (accept opc s).rxIdx = s.rxIdx := rfl
@[simp] theorem accept_txBuf (opc : Byte) (s : State) : (accept opc s).txBuf = s.txBuf := rfl
@[simp] theorem accept_outBuf (opc : Byte) (s : State) : (accept opc s).outBuf = s.outBuf := rfl
@[simp] theorem accept_stmBuf (opc : Byte) (s : State) : (accept opc s).stmBuf = s.stmBuf := rfl
@[simp] theorem accept_stmIdx (opc : Byte) (s : State) : (accept opc s).stmIdx = s.stmIdx := rfl
@[simp] theorem accept_temp (opc : Byte) (s : State) : (accept opc s).temp = s.temp := rfl
@[simp] theorem accept_soil (opc : Byte) (s : State) : (accept opc s).soil = s.soil := rfl
@[simp] theorem accept_stype (opc : Byte) (s : State) : (accept opc s).stype = s.stype := rfl
@[simp] theorem accept_inbox (opc : Byte) (s : State) : (accept opc s).inbox = s.inbox := rfl

@[simp] theorem activate_result (s : State) : (activate s).result = s.result := rfl
@[simp] theorem activate_status (s : State) :
    (activate s).status = { s.status with active := true } := rfl
@[simp] theorem activate_lines (s : State) : (activate s).lines = s.lines := rfl
@[simp] theorem activate_cp (s : State) : (activate s).cp = s.cp := rfl
@[simp] theorem activate_stm (s : State) : (activate s).stm = s.stm := rfl
@[simp] theorem activate_rxBuf (s : State) : (activate s).rxBuf = s.rxBuf := rfl
@[simp] theorem activate_rxIdx (s : State) : (activate s).rxIdx = s.rxIdx := rfl
@[simp] theorem activate_txBuf (s : State) : (activate s).txBuf = s.txBuf := rfl
@[simp] theorem activate_outBuf (s : State) : (activate s).outBuf = s.outBuf := rfl
@[simp] theorem activate_stmBuf (s : State) : (activate s).stmBuf = s.stmBuf := rfl
@[simp] theorem activate_stmIdx (s : State) : (activate s).stmIdx = s.stmIdx := rfl
@[simp] theorem activate_temp (s : State) : (activate s).temp = s.temp := rfl
@[simp] theorem activate_soil (s : State) : (activate s).soil = s.soil := rfl
@[simp] theorem activate_stype (s : State) : (activate s).stype = s.stype := rfl
@[simp] theorem activate_inbox (s : State) : (activate s).inbox = s.inbox := rfl

@[simp] theorem finish_result (code : Word) (s : State) :
    (finish code s).result = code := rfl
@[simp] theorem finish_status (code : Word) (s : State) :
    (finish code s).status = { s.status with active := false } := rfl
@[simp] theorem finish_lines (code : Word) (s : State) : (finish code s).lines = s.lines := rfl
@[simp] theorem finish_cp (code : Word) (s : State) : (finish code s).cp = s.cp := rfl
@[simp] theorem finish_stm (code : Word) (s : State) : (finish code s).stm = s.stm := rfl
@[simp] theorem finish_rxBuf (code : Word) (s : State) : (finish code s).rxBuf = s.rxBuf := rfl
@[simp] theorem finish_rxIdx (code : Word) (s : State) : (finish code s).rxIdx = s.rxIdx := rfl
@[simp] theorem finish_txBuf (code : Word) (s : State) : (finish code s).txBuf = s.txBuf := rfl
@[simp] theorem finish_outBuf (code : Word) (s : State) : (finish code s).outBuf = s.outBuf := rfl
@[simp] theorem finish_stmBuf (code : Word) (s : State) : (finish code s).stmBuf = s.stmBuf := rfl
@[simp] theorem finish_stmIdx (code : Word) (s : State) : (finish code s).stmIdx = s.stmIdx := rfl
@[simp] theorem finish_temp (code : Word) (s : State) : (finish code s).temp = s.temp := rfl
@[simp] theorem finish_soil (code : Word) (s : State) : (finish code s).soil = s.soil := rfl
@[simp] theorem finish_stype (code : Word) (s : State) : (finish code s).stype = s.stype := rfl
@[simp] theorem finish_inbox (code : Word) (s : State) : (finish code s).inbox = s.inbox := rfl

@[simp] theorem finishCp_result (code : Word) (s : State) :
    (finishCp code s).result = code := rfl
@[simp] theorem finishCp_status (code : Word) (s : State) :
    (finishCp code s).status = { s.status with active := false } := rfl
@[simp] theorem finishCp_lines (code : Word) (s : State) : (finishCp code s).lines = s.lines := rfl
@[simp] theorem finishCp_cp (code : Word) (s : State) :
    (finishCp code s).cp = { s.cp with cps := .idle, op := .none } := rfl
@[simp] theorem finishCp_stm (code : Word) (s : State) : (finishCp code s).stm = s.stm := rfl
@[simp] theorem finishCp_rxBuf (code : Word) (s : State) : (finishCp code s).rxBuf = s.rxBuf := rfl
@[simp] theorem finishCp_rxIdx (code : Word) (s : State) : (finishCp code s).rxIdx = s.rxIdx := rfl
@[simp] theorem finishCp_txBuf (code : Word) (s : State) : (finishCp code s).txBuf = s.txBuf := rfl
@[simp] theorem finishCp_outBuf (code : Word) (s : State) : (finishCp code s).outBuf = s.outBuf := rfl
@[simp] theorem finishCp_stmBuf (code : Word) (s : State) : (finishCp code s).stmBuf = s.stmBuf := rfl
@[simp] theorem finishCp_stmIdx (code : Word) (s : State) : (finishCp code s).stmIdx = s.stmIdx := rfl
@[simp] theorem finishCp_temp (code : Word) (s : State) : (finishCp code s).temp = s.temp := rfl
@[simp] theorem finishCp_soil (code : Word) (s : State) : (finishCp code s).soil = s.soil := rfl
@[simp] theorem finishCp_stype (code : Word) (s : State) : (finishCp code s).stype = s.stype := rfl
@[simp] theorem finishCp_inbox (code : Word) (s : State) : (finishCp code s).inbox = s.inbox := rfl

@[simp] theorem raiseFault_result (cause : FaultCause) (s : State) : (raiseFault cause s).result = s.result := rfl
@[simp] theorem raiseFault_status (cause : FaultCause) (s : State) :
    (raiseFault cause s).status = { s.status with fault := true, faultCause := some cause, active := false } := rfl
@[simp] theorem raiseFault_lines (cause : FaultCause) (s : State) :
    (raiseFault cause s).lines = { s.lines with cpOe := false, exc := PerChannel.all false } := rfl
@[simp] theorem raiseFault_cp (cause : FaultCause) (s : State) :
    (raiseFault cause s).cp = { s.cp with cps := .idle, op := .none } := rfl
@[simp] theorem raiseFault_stm (cause : FaultCause) (s : State) :
    (raiseFault cause s).stm = { s.stm with sts := .idle, op := .none, edgeEn := false } := rfl
@[simp] theorem raiseFault_rxBuf (cause : FaultCause) (s : State) : (raiseFault cause s).rxBuf = s.rxBuf := rfl
@[simp] theorem raiseFault_rxIdx (cause : FaultCause) (s : State) : (raiseFault cause s).rxIdx = s.rxIdx := rfl
@[simp] theorem raiseFault_txBuf (cause : FaultCause) (s : State) : (raiseFault cause s).txBuf = s.txBuf := rfl
@[simp] theorem raiseFault_outBuf (cause : FaultCause) (s : State) : (raiseFault cause s).outBuf = s.outBuf := rfl
@[simp] theorem raiseFault_stmBuf (cause : FaultCause) (s : State) : (raiseFault cause s).stmBuf = s.stmBuf := rfl
@[simp] theorem raiseFault_stmIdx (cause : FaultCause) (s : State) : (raiseFault cause s).stmIdx = s.stmIdx := rfl
@[simp] theorem raiseFault_temp (cause : FaultCause) (s : State) : (raiseFault cause s).temp = s.temp := rfl
@[simp] theorem raiseFault_soil (cause : FaultCause) (s : State) : (raiseFault cause s).soil = s.soil := rfl
@[simp] theorem raiseFault_stype (cause : FaultCause) (s : State) : (raiseFault cause s).stype = s.stype := rfl
@[simp] theorem raiseFault_inbox (cause : FaultCause) (s : State) : (raiseFault cause s).inbox = s.inbox := rfl

@[simp] theorem nextCycle_result (s : State) : (nextCycle s).result = s.result := rfl
@[simp] theorem nextCycle_status (s : State) : (nextCycle s).status = s.status := rfl
@[simp] theorem nextCycle_lines (s : State) : (nextCycle s).lines = s.lines := rfl
@[simp] theorem nextCycle_cp (s : State) :
    (nextCycle s).cp = { s.cp with cyc := s.cp.cyc + 1 } := rfl
@[simp] theorem nextCycle_stm (s : State) : (nextCycle s).stm = s.stm := rfl
@[simp] theorem nextCycle_rxBuf (s : State) : (nextCycle s).rxBuf = s.rxBuf := rfl
@[simp] theorem nextCycle_rxIdx (s : State) : (nextCycle s).rxIdx = s.rxIdx := rfl
@[simp] theorem nextCycle_txBuf (s : State) : (nextCycle s).txBuf = s.txBuf := rfl
@[simp] theorem nextCycle_outBuf (s : State) : (nextCycle s).outBuf = s.outBuf := rfl
@[simp] theorem nextCycle_stmBuf (s : State) : (nextCycle s).stmBuf = s.stmBuf := rfl
@[simp] theorem nextCycle_stmIdx (s : State) : (nextCycle s).stmIdx = s.stmIdx := rfl
@[simp] theorem nextCycle_temp (s : State) : (nextCycle s).temp = s.temp := rfl
@[simp] theorem nextCycle_soil (s : State) : (nextCycle s).soil = s.soil := rfl
@[simp] theorem nextCycle_stype (s : State) : (nextCycle s).stype = s.stype := rfl
@[simp] theorem nextCycle_inbox (s : State) : (nextCycle s).inbox = s.inbox := rfl

@[simp] theorem rxDataBit_result (d : Bool) (s : State) : (rxDataBit d s).result = s.result := rfl
@[simp] theorem rxDataBit_status (d : Bool) (s : State) : (rxDataBit d s).status = s.status := rfl
@[simp] theorem rxDataBit_lines (d : Bool) (s : State) : (rxDataBit d s).lines = s.lines := rfl
@[simp] theorem rxDataBit_stm (d : Bool) (s : State) : (rxDataBit d s).stm = s.stm := rfl
@[simp] theorem rxDataBit_rxBuf (d : Bool) (s : State) : (rxDataBit d s).rxBuf = s.rxBuf := rfl
@[simp] theorem rxDataBit_rxIdx (d : Bool) (s : State) : (rxDataBit d s).rxIdx = s.rxIdx := rfl
@[simp] theorem rxDataBit_txBuf (d : Bool) (s : State) : (rxDataBit d s).txBuf = s.txBuf := rfl
@[simp] theorem rxDataBit_outBuf (d : Bool) (s : State) : (rxDataBit d s).outBuf = s.outBuf := rfl
@[simp] theorem rxDataBit_stmBuf (d : Bool) (s : State) : (rxDataBit d s).stmBuf = s.stmBuf := rfl
@[simp] theorem rxDataBit_stmIdx (d : Bool) (s : State) : (rxDataBit d s).stmIdx = s.stmIdx := rfl
@[simp] theorem rxDataBit_temp (d : Bool) (s : State) : (rxDataBit d s).temp = s.temp := rfl
@[simp] theorem rxDataBit_soil (d : Bool) (s : State) : (rxDataBit d s).soil = s.soil := rfl
@[simp] theorem rxDataBit_stype (d : Bool) (s : State) : (rxDataBit d s).stype = s.stype := rfl
@[simp] theorem rxDataBit_inbox (d : Bool) (s : State) : (rxDataBit d s).inbox = s.inbox := rfl

@[simp] theorem rxParityBit_result (d : Bool) (s : State) : (rxParityBit d s).result = s.result := rfl
@[simp] theorem rxParityBit_lines (d : Bool) (s : State) : (rxParityBit d s).lines = s.lines := rfl
@[simp] theorem rxParityBit_stm (d : Bool) (s : State) : (rxParityBit d s).stm = s.stm := rfl
@[simp] theorem rxParityBit_rxBuf (d : Bool) (s : State) : (rxParityBit d s).rxBuf = s.rxBuf := rfl
@[simp] theorem rxParityBit_rxIdx (d : Bool) (s : State) : (rxParityBit d s).rxIdx = s.rxIdx := rfl
@[simp] theorem rxParityBit_txBuf (d : Bool) (s : State) : (rxParityBit d s).txBuf = s.txBuf := rfl
@[simp] theorem rxParityBit_outBuf (d : Bool) (s : State) : (rxParityBit d s).outBuf = s.outBuf := rfl
@[simp] theorem rxParityBit_stmBuf (d : Bool) (s : State) : (rxParityBit d s).stmBuf = s.stmBuf := rfl
@[simp] theorem rxParityBit_stmIdx (d : Bool) (s : State) : (rxParityBit d s).stmIdx = s.stmIdx := rfl
@[simp] theorem rxParityBit_temp (d : Bool) (s : State) : (rxParityBit d s).temp = s.temp := rfl
@[simp] theorem rxParityBit_soil (d : Bool) (s : State) : (rxParityBit d s).soil = s.soil := rfl
@[simp] theorem rxParityBit_stype (d : Bool) (s : State) : (rxParityBit d s).stype = s.stype := rfl
@[simp] theorem rxParityBit_inbox (d : Bool) (s : State) : (rxParityBit d s).inbox = s.inbox := rfl

@[simp] theorem powerOff_result (s : State) : (powerOff s).result = s.result := rfl
@[simp] theorem powerOff_status (s : State) : (powerOff s).status = s.status := rfl
@[simp] theorem powerOff_lines (s : State) :
    (powerOff s).lines = { s.lines with exc := s.lines.exc.set s.stm.ch false } := rfl
@[simp] theorem powerOff_cp (s : State) : (powerOff s).cp = s.cp := rfl
@[simp] theorem powerOff_stm (s : State) :
    (powerOff s).stm = { s.stm with edgeEn := false } := rfl
@[simp] theorem powerOff_rxBuf (s : State) : (powerOff s).rxBuf = s.rxBuf := rfl
@[simp] theorem powerOff_rxIdx (s : State) : (powerOff s).rxIdx = s.rxIdx := rfl
@[simp] theorem powerOff_txBuf (s : State) : (powerOff s).txBuf = s.txBuf := rfl
@[simp] theorem powerOff_outBuf (s : State) : (powerOff s).outBuf = s.outBuf := rfl
@[simp] theorem powerOff_stmBuf (s : State) : (powerOff s).stmBuf = s.stmBuf := rfl
@[simp] theorem powerOff_stmIdx (s : State) : (powerOff s).stmIdx = s.stmIdx := rfl
@[simp] theorem powerOff_temp (s : State) : (powerOff s).temp = s.temp := rfl
@[simp] theorem powerOff_soil (s : State) : (powerOff s).soil = s.soil := rfl
@[simp] theorem powerOff_stype (s : State) : (powerOff s).stype = s.stype := rfl
@[simp] theorem powerOff_inbox (s : State) : (powerOff s).inbox = s.inbox := rfl

@[simp] theorem endStm_result (code : Word) (s : State) :
    (endStm code s).result = code := rfl
@[simp] theorem endStm_status (code : Word) (s : State) :
    (endStm code s).status = { s.status with active := false } := rfl
@[simp] theorem endStm_lines (code : Word) (s : State) : (endStm code s).lines = s.lines := rfl
@[simp] theorem endStm_cp (code : Word) (s : State) : (endStm code s).cp = s.cp := rfl
@[simp] theorem endStm_stm (code : Word) (s : State) :
    (endStm code s).stm = { s.stm with sts := .idle, op := .none } := rfl
@[simp] theorem endStm_rxBuf (code : Word) (s : State) : (endStm code s).rxBuf = s.rxBuf := rfl
@[simp] theorem endStm_rxIdx (code : Word) (s : State) : (endStm code s).rxIdx = s.rxIdx := rfl
@[simp] theorem endStm_txBuf (code : Word) (s : State) : (endStm code s).txBuf = s.txBuf := rfl
@[simp] theorem endStm_outBuf (code : Word) (s : State) : (endStm code s).outBuf = s.outBuf := rfl
@[simp] theorem endStm_stmBuf (code : Word) (s : State) : (endStm code s).stmBuf = s.stmBuf := rfl
@[simp] theorem endStm_stmIdx (code : Word) (s : State) : (endStm code s).stmIdx = s.stmIdx := rfl
@[simp] theorem endStm_temp (code : Word) (s : State) : (endStm code s).temp = s.temp := rfl
@[simp] theorem endStm_soil (code : Word) (s : State) : (endStm code s).soil = s.soil := rfl
@[simp] theorem endStm_stype (code : Word) (s : State) : (endStm code s).stype = s.stype := rfl
@[simp] theorem endStm_inbox (code : Word) (s : State) : (endStm code s).inbox = s.inbox := rfl

@[simp] theorem rearm_result (s : State) : (rearm s).result = s.result := rfl
@[simp] theorem rearm_status (s : State) : (rearm s).status = s.status := rfl
@[simp] theorem rearm_lines (s : State) : (rearm s).lines = s.lines := rfl
@[simp] theorem rearm_cp (s : State) : (rearm s).cp = s.cp := rfl
@[simp] theorem rearm_stm (s : State) :
    (rearm s).stm = { s.stm with k := 9, sts := .armed, edgeEn := true } := rfl
@[simp] theorem rearm_rxBuf (s : State) : (rearm s).rxBuf = s.rxBuf := rfl
@[simp] theorem rearm_rxIdx (s : State) : (rearm s).rxIdx = s.rxIdx := rfl
@[simp] theorem rearm_txBuf (s : State) : (rearm s).txBuf = s.txBuf := rfl
@[simp] theorem rearm_outBuf (s : State) : (rearm s).outBuf = s.outBuf := rfl
@[simp] theorem rearm_stmBuf (s : State) : (rearm s).stmBuf = s.stmBuf := rfl
@[simp] theorem rearm_stmIdx (s : State) : (rearm s).stmIdx = s.stmIdx := rfl
@[simp] theorem rearm_temp (s : State) : (rearm s).temp = s.temp := rfl
@[simp] theorem rearm_soil (s : State) : (rearm s).soil = s.soil := rfl
@[simp] theorem rearm_stype (s : State) : (rearm s).stype = s.stype := rfl
@[simp] theorem rearm_inbox (s : State) : (rearm s).inbox = s.inbox := rfl

@[simp] theorem stmDataBit_result (b : Bool) (s : State) : (stmDataBit b s).result = s.result := rfl
@[simp] theorem stmDataBit_status (b : Bool) (s : State) : (stmDataBit b s).status = s.status := rfl
@[simp] theorem stmDataBit_lines (b : Bool) (s : State) : (stmDataBit b s).lines = s.lines := rfl
@[simp] theorem stmDataBit_cp (b : Bool) (s : State) : (stmDataBit b s).cp = s.cp := rfl
@[simp] theorem stmDataBit_rxBuf (b : Bool) (s : State) : (stmDataBit b s).rxBuf = s.rxBuf := rfl
@[simp] theorem stmDataBit_rxIdx (b : Bool) (s : State) : (stmDataBit b s).rxIdx = s.rxIdx := rfl
@[simp] theorem stmDataBit_txBuf (b : Bool) (s : State) : (stmDataBit b s).txBuf = s.txBuf := rfl
@[simp] theorem stmDataBit_outBuf (b : Bool) (s : State) : (stmDataBit b s).outBuf = s.outBuf := rfl
@[simp] theorem stmDataBit_stmBuf (b : Bool) (s : State) : (stmDataBit b s).stmBuf = s.stmBuf := rfl
@[simp] theorem stmDataBit_stmIdx (b : Bool) (s : State) : (stmDataBit b s).stmIdx = s.stmIdx := rfl
@[simp] theorem stmDataBit_temp (b : Bool) (s : State) : (stmDataBit b s).temp = s.temp := rfl
@[simp] theorem stmDataBit_soil (b : Bool) (s : State) : (stmDataBit b s).soil = s.soil := rfl
@[simp] theorem stmDataBit_stype (b : Bool) (s : State) : (stmDataBit b s).stype = s.stype := rfl
@[simp] theorem stmDataBit_inbox (b : Bool) (s : State) : (stmDataBit b s).inbox = s.inbox := rfl

@[simp] theorem startWaitstart_result (s : State) : (startWaitstart s).result = s.result := rfl
@[simp] theorem startWaitstart_status (s : State) :
    (startWaitstart s).status = { s.status with active := true } := rfl
@[simp] theorem startWaitstart_lines (s : State) :
    (startWaitstart s).lines = { s.lines with cpOe := false } := rfl
@[simp] theorem startWaitstart_cp (s : State) :
    (startWaitstart s).cp = { s.cp with op := .waitstart, cps := .ws1 } := rfl
@[simp] theorem startWaitstart_stm (s : State) : (startWaitstart s).stm = s.stm := rfl
@[simp] theorem startWaitstart_rxBuf (s : State) : (startWaitstart s).rxBuf = s.rxBuf := rfl
@[simp] theorem startWaitstart_rxIdx (s : State) : (startWaitstart s).rxIdx = s.rxIdx := rfl
@[simp] theorem startWaitstart_txBuf (s : State) : (startWaitstart s).txBuf = s.txBuf := rfl
@[simp] theorem startWaitstart_outBuf (s : State) : (startWaitstart s).outBuf = s.outBuf := rfl
@[simp] theorem startWaitstart_stmBuf (s : State) : (startWaitstart s).stmBuf = s.stmBuf := rfl
@[simp] theorem startWaitstart_stmIdx (s : State) : (startWaitstart s).stmIdx = s.stmIdx := rfl
@[simp] theorem startWaitstart_temp (s : State) : (startWaitstart s).temp = s.temp := rfl
@[simp] theorem startWaitstart_soil (s : State) : (startWaitstart s).soil = s.soil := rfl
@[simp] theorem startWaitstart_stype (s : State) : (startWaitstart s).stype = s.stype := rfl
@[simp] theorem startWaitstart_inbox (s : State) : (startWaitstart s).inbox = s.inbox := rfl

@[simp] theorem startStm_result (op : StmOp) (ch : Channel) (s : State) : (startStm op ch s).result = s.result := rfl
@[simp] theorem startStm_status (op : StmOp) (ch : Channel) (s : State) :
    (startStm op ch s).status = { s.status with active := true } := rfl
@[simp] theorem startStm_lines (op : StmOp) (ch : Channel) (s : State) :
    (startStm op ch s).lines = { s.lines with exc := s.lines.exc.set ch true } := rfl
@[simp] theorem startStm_cp (op : StmOp) (ch : Channel) (s : State) : (startStm op ch s).cp = s.cp := rfl
@[simp] theorem startStm_stm (op : StmOp) (ch : Channel) (s : State) :
    (startStm op ch s).stm = { s.stm with
      op := op, ch := ch, nmax := op.iterations, lastv := false, lastb := 0x00, tocnt := 0, edgeEn := false, sts := .exciting } := rfl
@[simp] theorem startStm_rxBuf (op : StmOp) (ch : Channel) (s : State) : (startStm op ch s).rxBuf = s.rxBuf := rfl
@[simp] theorem startStm_rxIdx (op : StmOp) (ch : Channel) (s : State) : (startStm op ch s).rxIdx = s.rxIdx := rfl
@[simp] theorem startStm_txBuf (op : StmOp) (ch : Channel) (s : State) : (startStm op ch s).txBuf = s.txBuf := rfl
@[simp] theorem startStm_outBuf (op : StmOp) (ch : Channel) (s : State) : (startStm op ch s).outBuf = s.outBuf := rfl
@[simp] theorem startStm_stmBuf (op : StmOp) (ch : Channel) (s : State) :
    (startStm op ch s).stmBuf = [] := rfl
@[simp] theorem startStm_stmIdx (op : StmOp) (ch : Channel) (s : State) :
    (startStm op ch s).stmIdx = 0 := rfl
@[simp] theorem startStm_temp (op : StmOp) (ch : Channel) (s : State) : (startStm op ch s).temp = s.temp := rfl
@[simp] theorem startStm_soil (op : StmOp) (ch : Channel) (s : State) : (startStm op ch s).soil = s.soil := rfl
@[simp] theorem startStm_stype (op : StmOp) (ch : Channel) (s : State) : (startStm op ch s).stype = s.stype := rfl
@[simp] theorem startStm_inbox (op : StmOp) (ch : Channel) (s : State) : (startStm op ch s).inbox = s.inbox := rfl

@[simp] theorem setBuf_result (s : State) (b : BufId) (m : Memory) : (s.setBuf b m).result = s.result := by
  cases b <;> rfl
@[simp] theorem setBuf_status (s : State) (b : BufId) (m : Memory) : (s.setBuf b m).status = s.status := by
  cases b <;> rfl
@[simp] theorem setBuf_lines (s : State) (b : BufId) (m : Memory) : (s.setBuf b m).lines = s.lines := by
  cases b <;> rfl
@[simp] theorem setBuf_cp (s : State) (b : BufId) (m : Memory) : (s.setBuf b m).cp = s.cp := by
  cases b <;> rfl
@[simp] theorem setBuf_stm (s : State) (b : BufId) (m : Memory) : (s.setBuf b m).stm = s.stm := by
  cases b <;> rfl
@[simp] theorem setBuf_rxIdx (s : State) (b : BufId) (m : Memory) : (s.setBuf b m).rxIdx = s.rxIdx := by
  cases b <;> rfl
@[simp] theorem setBuf_stmIdx (s : State) (b : BufId) (m : Memory) : (s.setBuf b m).stmIdx = s.stmIdx := by
  cases b <;> rfl
@[simp] theorem setBuf_temp (s : State) (b : BufId) (m : Memory) : (s.setBuf b m).temp = s.temp := by
  cases b <;> rfl
@[simp] theorem setBuf_soil (s : State) (b : BufId) (m : Memory) : (s.setBuf b m).soil = s.soil := by
  cases b <;> rfl
@[simp] theorem setBuf_stype (s : State) (b : BufId) (m : Memory) : (s.setBuf b m).stype = s.stype := by
  cases b <;> rfl
@[simp] theorem setBuf_inbox (s : State) (b : BufId) (m : Memory) : (s.setBuf b m).inbox = s.inbox := by
  cases b <;> rfl

@[simp] theorem buf_setBuf_self (s : State) (b : BufId) (m : Memory) : (s.setBuf b m).buf b = m := by
  cases b <;> rfl

@[simp] theorem buf_setBuf_ne (s : State) {b c : BufId} (m : Memory) (h : c ≠ b) : (s.setBuf b m).buf c = s.buf c := by
  cases b <;> cases c <;> first | rfl | exact absurd rfl h

theorem setBuf_rxBuf (s : State) (b : BufId) (m : Memory) : (s.setBuf b m).rxBuf = if b = .rx then m else s.rxBuf := by
  cases b <;> rfl

theorem setBuf_txBuf (s : State) (b : BufId) (m : Memory) : (s.setBuf b m).txBuf = if b = .tx then m else s.txBuf := by
  cases b <;> rfl

theorem setBuf_outBuf (s : State) (b : BufId) (m : Memory) : (s.setBuf b m).outBuf = if b = .out then m else s.outBuf := by
  cases b <;> rfl

theorem setBuf_stmBuf (s : State) (b : BufId) (m : Memory) : (s.setBuf b m).stmBuf = if b = .stm then m else s.stmBuf := by
  cases b <;> rfl

/-- Reset keeps the inputs still to come and nothing else. -/
@[simp] theorem doReset_inbox (s : State) : (doReset s).inbox = s.inbox := rfl

@[simp] theorem deliver_inbox (is : List Input) (s : State) : (deliver is s).inbox = is ++ s.inbox := rfl

@[simp] theorem PerChannel.get_set_self {α : Type} (p : PerChannel α) (c : Channel) (v : α) : (p.set c v).get c = v := by
  cases c <;> rfl

@[simp] theorem PerChannel.get_set_ne {α : Type} (p : PerChannel α) {c d : Channel} (v : α) (h : d ≠ c) :
    (p.set c v).get d = p.get d := by
  cases c <;> cases d <;> first | rfl | exact absurd rfl h

@[simp] theorem PerChannel.get_all {α : Type} (v : α) (c : Channel) : (PerChannel.all v).get c = v := by
  cases c <;> rfl

@[simp] theorem PerChannel.set_set {α : Type} (p : PerChannel α) (c : Channel) (v w : α) : (p.set c v).set c w = p.set c w := by
  cases c <;> rfl

/-- Writing back the value every channel has changes nothing. -/
@[simp] theorem PerChannel.set_all {α : Type} (v : α) (c : Channel) : (PerChannel.all v).set c v = PerChannel.all v := by
  cases c <;> rfl

end Sys2Proof.Machine
end

