-- ==== Sys2Proof/Laws/Ops.lean ====
section
/-! SUPPORT. What each shared operation can do, once, for the proofs to cite. -/

namespace Sys2Proof.Machine

theorem onCommand_fault {legal : Bool} {opc : Byte} {body : State → Result} {s : State} (h : s.status.fault = true) :
    onCommand legal opc body s = .next s := by
  simp [onCommand, h]

theorem onCommand_busy {legal : Bool} {opc : Byte} {body : State → Result} {s : State} (hf : s.status.fault = false)
    (ha : s.status.active = true) : onCommand legal opc body s = .next (rejectBusy s) := by
  simp [onCommand, hf, ha]

theorem onCommand_illegal {opc : Byte} {body : State → Result} {s : State} (h : s.Ready) :
    onCommand false opc body s = .next (rejectIllegal s) := by
  simp [onCommand, h.1, h.2]

theorem onCommand_ready {opc : Byte} {body : State → Result} {s : State} (h : s.Ready) :
    onCommand true opc body s = body (accept opc s) := by
  simp [onCommand, h.1, h.2]

/-- A command that answers a next state was ignored, rejected, or ran its body from the accepted state. -/
theorem onCommand_cases {legal : Bool} {opc : Byte} {body : State → Result} {s t : State}
    (h : onCommand legal opc body s = .next t) :
    (s.status.fault = true ∧ t = s) ∨
      (s.status.fault = false ∧ s.status.active = true ∧ t = rejectBusy s) ∨
      (s.Ready ∧ legal = false ∧ t = rejectIllegal s) ∨
      (s.Ready ∧ legal = true ∧ body (accept opc s) = .next t) := by
  unfold onCommand at h
  split at h
  · rename_i hf
    exact .inl ⟨hf, by injection h with h; exact h.symm⟩
  · rename_i hf
    have hf : s.status.fault = false := by simpa using hf
    split at h
    · rename_i ha
      exact .inr (.inl ⟨hf, ha, by injection h with h; exact h.symm⟩)
    · rename_i ha
      have ha : s.status.active = false := by simpa using ha
      split at h
      · rename_i hl
        exact .inr (.inr (.inr ⟨⟨hf, ha⟩, hl, h⟩))
      · rename_i hl
        exact .inr (.inr (.inl ⟨⟨hf, ha⟩, by simpa using hl, by injection h with h; exact h.symm⟩))

/-- The status of an accepted state once the command is waiting or over (R301). -/
theorem accept_status_eq (opc : Byte) (active : Bool) (s : State) :
    ({ (accept opc s).status with active := active } : Status) = acceptedStatus opc active s := rfl

theorem onEvent_fault {act : State → Result} {s : State} (h : s.status.fault = true) : onEvent act s = .next s := by
  simp [onEvent, h]

theorem onEvent_live {act : State → Result} {s : State} (h : s.status.fault = false) : onEvent act s = act s := by
  simp [onEvent, h]

/-- An event that answers a next state was dropped in a fault, or acted. -/
theorem onEvent_cases {act : State → Result} {s t : State} (h : onEvent act s = .next t) :
    (s.status.fault = true ∧ t = s) ∨ (s.status.fault = false ∧ act s = .next t) := by
  cases hf : s.status.fault
  · rw [onEvent_live hf] at h; exact .inr ⟨rfl, h⟩
  · rw [onEvent_fault hf] at h; injection h with h; exact .inl ⟨rfl, h.symm⟩

theorem readByte_of_lt {b : BufId} {i : Nat} {s : State} {k : Byte → Result} (h : i < b.cap) :
    readByte b i s k = k ((s.buf b).get i) := by
  simp [readByte, h]

theorem writeByte_of_lt {b : BufId} {i : Nat} {v : Byte} {s : State} {k : State → Result} (h : i < b.cap) :
    writeByte b i v s k = k (s.setBuf b ((s.buf b).set i v)) := by
  simp [writeByte, h]

/-- A read that goes on was within the buffer. -/
theorem readByte_next {b : BufId} {i : Nat} {s t : State} {k : Byte → Result} (h : readByte b i s k = .next t) :
    i < b.cap ∧ k ((s.buf b).get i) = .next t := by
  unfold readByte at h
  split at h
  · exact ⟨‹_›, h⟩
  · cases h

/-- A write that goes on was within the buffer. -/
theorem writeByte_next {b : BufId} {i : Nat} {v : Byte} {s t : State} {k : State → Result}
    (h : writeByte b i v s k = .next t) : i < b.cap ∧ k (s.setBuf b ((s.buf b).set i v)) = .next t := by
  unfold writeByte at h
  split at h
  · exact ⟨‹_›, h⟩
  · cases h

/-- A write within the buffer keeps every buffer in the canonical form. -/
theorem BuffersOk_setBuf_set {s : State} (h : s.BuffersOk) {b : BufId} {i : Nat} (hi : i < b.cap) (v : Byte) :
    (s.setBuf b ((s.buf b).set i v)).BuffersOk := by
  obtain ⟨h1, h2, h3, h4⟩ := h
  cases b
  · exact ⟨Memory.set_wf h1 hi v, h2, h3, h4⟩
  · exact ⟨h1, Memory.set_wf h2 hi v, h3, h4⟩
  · exact ⟨h1, h2, Memory.set_wf h3 hi v, h4⟩
  · exact ⟨h1, h2, h3, Memory.set_wf h4 hi v⟩

/-- An append that goes on has room, and its rest runs on the buffer with the byte; else it is the overrun (R145). -/
theorem appendByte_cases {b : Byte} {s t : State} {k : State → Result} (h : appendByte b s k = .next t) :
    (s.rxIdx = 64 ∧ t = raiseFault .rxOverrun s) ∨
      (s.rxIdx.toNat < 64 ∧
        k { s with rxBuf := s.rxBuf.set s.rxIdx.toNat b, rxIdx := s.rxIdx + 1 } = .next t) := by
  unfold appendByte at h
  split at h
  · injection h with h; exact .inl ⟨‹_›, h.symm⟩
  · exact .inr (writeByte_next h)

theorem appendByte_full {b : Byte} {s : State} {k : State → Result} (h : s.rxIdx = 64) :
    appendByte b s k = .next (raiseFault .rxOverrun s) := by
  simp [appendByte, h]

theorem appendByte_room {b : Byte} {s : State} {k : State → Result} (h : s.rxIdx.toNat < 64) :
    appendByte b s k = k { s with rxBuf := s.rxBuf.set s.rxIdx.toNat b, rxIdx := s.rxIdx + 1 } := by
  have hne : s.rxIdx ≠ 64 := fun he => by simp [he] at h
  rw [appendByte, if_neg hne, writeByte_of_lt (show s.rxIdx.toNat < BufId.rx.cap from h)]
  rfl

theorem alignByte_low {s : State} (h : s.lines.clkLvl = false) : alignByte s = startCycle1 s := by
  simp [alignByte, h]

theorem alignByte_high {s : State} (h : s.lines.clkLvl = true) : alignByte s = { s with cp := { s.cp with cps := .sync } } := by
  simp [alignByte, h]

/-- `begin_byte(TX, v)` in one equation (R125, R126). -/
theorem beginTx_eq (v : Byte) (s : State) :
    beginTx v s =
      { s with
        cp := { s.cp with
          dir := .tx, ack := false, shift := v, par := parity v
          cps := if s.lines.clkLvl then .sync else .xfer
          cyc := if s.lines.clkLvl then s.cp.cyc else 1 }
        lines := if s.lines.clkLvl then s.lines else { s.lines with cpOe := true, cpOut := v.getLsbD 0 } } := by
  cases h : s.lines.clkLvl <;> simp [beginTx, alignByte, startCycle1, h]

/-- `begin_byte(RX, _)` in one equation (R125, R126). -/
theorem beginRx_eq (s : State) :
    beginRx s =
      { s with
        cp := { s.cp with
          dir := .rx, ack := false, shift := 0x00, par := false, pb := false, mis := false
          cps := if s.lines.clkLvl then .sync else .xfer
          cyc := if s.lines.clkLvl then s.cp.cyc else 1 }
        lines := if s.lines.clkLvl then s.lines else { s.lines with cpOe := false } } := by
  cases h : s.lines.clkLvl <;> simp [beginRx, alignByte, startCycle1, h]

/-- Sending the current byte goes on exactly when its index is within `TX_BUF`. -/
theorem sendCurrent_cases {s t : State} (h : sendCurrent s = .next t) :
    s.cp.txi.toNat < 64 ∧ t = beginTx (s.txBuf.get s.cp.txi.toNat) s := by
  obtain ⟨h1, h2⟩ := readByte_next h
  injection h2 with h2
  exact ⟨h1, h2.symm⟩

theorem sendCurrent_of_lt {s : State} (h : s.cp.txi.toNat < 64) :
    sendCurrent s = .next (beginTx (s.txBuf.get s.cp.txi.toNat) s) := readByte_of_lt h

/-- A character store that goes on (R226). -/
theorem storeByte_cases {b : Byte} {s t : State} (h : storeByte b s = .next t) :
    s.stmIdx.toNat < 20 ∧
      t = { s with
        stmBuf := s.stmBuf.set s.stmIdx.toNat b
        stmIdx := if s.stmIdx.toNat + 1 = 20 then 0 else s.stmIdx + 1
        stm := { s.stm with lastv := true, lastb := b } } := by
  obtain ⟨h1, h2⟩ := writeByte_next h
  injection h2 with h2
  exact ⟨h1, h2.symm⟩

theorem storeByte_of_lt {b : Byte} {s : State} (h : s.stmIdx.toNat < 20) :
    storeByte b s =
      .next { s with
        stmBuf := s.stmBuf.set s.stmIdx.toNat b
        stmIdx := if s.stmIdx.toNat + 1 = 20 then 0 else s.stmIdx + 1
        stm := { s.stm with lastv := true, lastb := b } } := writeByte_of_lt h

/-- The parse changes at most `TEMP` and `SOIL`, from `STM_BUF` and the family codes alone (R262, R263). -/
theorem parse_eq (P : Params) (s : State) :
    parse P s = { s with temp := (parse P s).temp, soil := (parse P s).soil } := by
  unfold parse
  split
  · rfl
  · split
    · rfl
    · split <;> rfl

/-- `find_cr` finds the first CR of the buffer (R252). -/
theorem findCr_eq_some {m : Memory} {t : Nat} :
    findCr m = some t ↔ t < 20 ∧ m.get t = 0x0D ∧ ∀ j, j < t → m.get j ≠ 0x0D := by
  unfold findCr
  rw [List.find?_range_eq_some]
  simp only [Config.cr, List.mem_range, decide_eq_true_eq, Bool.not_eq_eq_eq_not, Bool.not_true, decide_eq_false_iff_not]
  constructor
  · rintro ⟨h1, h2, h3⟩; exact ⟨h2, h1, h3⟩
  · rintro ⟨h1, h2, h3⟩; exact ⟨h2, h1, h3⟩

/-- The registry write changes at most the channel's entry (R236). -/
theorem probeType_eq (s : State) : probeType s = { s with stype := (probeType s).stype } := by
  unfold probeType
  split <;> rfl

/-- Everything `finish_stm` leaves, in one record (R228, R236). -/
theorem finishStm_eq (P : Params) (timedOut : Bool) (s : State) :
    finishStm P timedOut s =
      { s with
        result := if timedOut then 2 else if checksumPasses s.stmBuf then 0 else 1
        status := { s.status with active := false }
        lines := { s.lines with exc := s.lines.exc.set s.stm.ch false }
        stm := { s.stm with sts := .idle, op := .none, edgeEn := false }
        temp := if timedOut = false ∧ checksumPasses s.stmBuf = true ∧ s.stm.op = .measure then (parse P s).temp else s.temp
        soil := if timedOut = false ∧ checksumPasses s.stmBuf = true ∧ s.stm.op = .measure then (parse P s).soil else s.soil
        stype :=
          if timedOut = false ∧ checksumPasses s.stmBuf = true ∧ s.stm.op ≠ .measure then (probeType s).stype
          else s.stype } := by
  have hp : ∀ t : State, t.stmBuf = s.stmBuf → t.temp = s.temp → t.soil = s.soil →
      (parse P t).temp = (parse P s).temp ∧ (parse P t).soil = (parse P s).soil := by
    intro t h1 h2 h3
    unfold parse
    rw [h1]
    split
    · exact ⟨h2, h3⟩
    · split
      · exact ⟨h2, h3⟩
      · split
        · exact ⟨h2, h3⟩
        · exact ⟨rfl, rfl⟩
  cases timedOut
  · cases hc : checksumPasses s.stmBuf
    · simp [finishStm, endStm, finish, powerOff, hc]
    · by_cases ho : s.stm.op = .measure
      · have hq := hp (powerOff s) rfl rfl rfl
        rw [finishStm]
        simp only [powerOff, hc, ho] at hq ⊢
        rw [parse_eq]
        simp [endStm, finish, hq]
      · rw [finishStm]
        simp only [powerOff, hc, ho]
        rw [probeType_eq]
        simp only [endStm, finish, probeType, if_false]
        cases findCr s.stmBuf <;> simp [ho]
  · simp [finishStm, endStm, finish, powerOff]

/-- CRC.RUN send keeps the canonical form (R174). -/
theorem crcSend_wf {P : Params} {m : Memory} (h : m.wf 64) {len : Nat} (h2 : 2 ≤ len) (hl : len ≤ 64) :
    (crcSend P m len).wf 64 := by
  refine Memory.setList_wf _ h ?_
  simp only [le16, List.length_cons, List.length_nil]
  omega

/-- What `crc_send` leaves at each index (R173, R174). -/
theorem crcSend_get {P : Params} {m : Memory} (h : m.wf 64) {len : Nat} (h2 : 2 ≤ len) (hl : len ≤ 64) (i : Nat) :
    (crcSend P m len).get i =
      if i = len - 2 then (P.crc16Tx (m.slice 0 (len - 2))).extractLsb' 0 8
      else if i = len - 1 then (P.crc16Tx (m.slice 0 (len - 2))).extractLsb' 8 8
      else m.get i := by
  have hw : len - 2 + (le16 (P.crc16Tx (m.slice 0 (len - 2)))).length ≤ 64 := by
    simp only [le16, List.length_cons, List.length_nil]; omega
  rw [crcSend, Memory.get_setList _ h hw]
  have hlen : ∀ x : Half, (le16 x).length = 2 := fun _ => rfl
  simp only [hlen]
  by_cases h0 : i = len - 2
  · subst h0
    rw [dif_pos (by omega), if_pos rfl]
    simp [le16]
  · by_cases h1 : i = len - 1
    · subst h1
      rw [dif_pos (by omega), if_neg h0, if_pos rfl]
      have : len - 1 - (len - 2) = 1 := by omega
      simp [le16, this]
    · rw [dif_neg (by omega), if_neg h0, if_neg h1]

/-- A run that takes a step goes on from the state the step leaves. -/
theorem run_of_next {M : Host.Core} {n : Nat} {s t : M.State} (h : M.step s = .next t) : M.run (n + 1) s = M.run n t := by
  rw [Host.Core.run, h]

theorem run_of_fault {M : Host.Core} {n : Nat} {s : M.State} {r : M.Fault} (h : M.step s = .fault r) :
    M.run (n + 1) s = .fault r := by
  rw [Host.Core.run, h]

theorem run_of_refused {M : Host.Core} {n : Nat} {s : M.State} {r : M.Refusal} (h : M.step s = .refused r) :
    M.run (n + 1) s = .refused r := by
  rw [Host.Core.run, h]

/-- `steps` is the host's run of the machine. -/
theorem steps_eq_run (n : Nat) (s : State) : steps n s = Host.Core.run Sys2Proof.core n s := by
  induction n generalizing s with
  | zero => rfl
  | succ n ih =>
    rw [steps]
    cases h : step s with
    | next t => exact (ih t).trans (run_of_next (M := Sys2Proof.core) h).symm
    | fault r => exact (run_of_fault (M := Sys2Proof.core) h).symm
    | refused r => exact (run_of_refused (M := Sys2Proof.core) h).symm

/-- The first step of a run, when its input leaves the state `t`. -/
theorem steps_cons {n : Nat} {s t : State} {i : Input} {rest : List Input} (h : s.inbox = i :: rest)
    (ht : takeInput i { s with inbox := rest } = .next t) : steps (n + 1) s = steps n t := by
  have : step s = .next t := by rw [← ht]; unfold step nextInput; rw [h]
  rw [steps, this]

/-- A legal length in numbers (R93). -/
theorem legalLen_iff (len : Byte) : legalLen len = true ↔ 6 ≤ len.toNat ∧ len.toNat ≤ 64 := by
  simp [legalLen]

theorem legalIdx_iff (buf : BufId) (idx : Byte) : legalIdx buf idx = true ↔ idx.toNat < buf.cap := by
  simp [legalIdx]

end Sys2Proof.Machine
end

