-- ==== Sys2Proof/Laws/Exec.lean ====
section
/-! SUPPORT. Every command in one shape: `onCommand` on its legality, its opcode and the body it runs when accepted. -/

namespace Sys2Proof.Machine

/-- What an accepted command does, from the state `accept` leaves. -/
def execBody : Instr → State → Result
  | .cpWaitstart, t => .next (startWaitstart t)
  | .cpSendbyte v, t => .next (beginTx v (activate { t with cp := { t.cp with op := .sendbyte } }))
  | .cpRecvbyte, t => .next (beginRx (activate { t with cp := { t.cp with op := .recvbyte } }))
  | .cpWaitmsg, t => .next (startWaitmsg t)
  | .cpSendmsg len, t => startSendmsg params len t
  | .cpGrabmsg, t => .next (grabmsg params t)
  | .crcRun mode len, t => .next (crcRun params mode len t)
  | .stmMeasure ch, t => .next (startStm .measure ch t)
  | .stmTypeprobe ch, t => .next (startStm .typeprobe ch t)
  | .stmChecksum, t => .next (finish (checksum t.stmBuf) t)
  | .stmParse, t => .next (finish 0 (parse params t))
  | .bufWrite buf idx v, t => writeByte buf idx.toNat v t fun u => .next (finish 0 u)
  | .bufRead buf idx, t => readByte buf idx.toNat t fun b => .next (finish (zext32 b) t)
  | .regRead reg, t => .next (finish (regValue t reg) t)

/-- The shape every command shares (R300, R301). -/
theorem exec_eq (i : Instr) (s : State) : exec i s = onCommand i.wellFormed i.opcode (execBody i) s := by
  cases i <;> rfl

/-- A legal command, with nothing in flight, runs its body. -/
theorem exec_ready {i : Instr} {s : State} (hw : i.wellFormed = true) (h : s.Ready) :
    exec i s = execBody i (accept i.opcode s) := by
  rw [exec_eq, hw, onCommand_ready h]

/-- Any command is ignored in a fault (R313). -/
theorem exec_fault (i : Instr) {s : State} (h : s.status.fault = true) : exec i s = .next s := by
  rw [exec_eq, onCommand_fault h]

/-- Any command is rejected while another is in flight (R302). -/
theorem exec_busy (i : Instr) {s : State} (hf : s.status.fault = false) (ha : s.status.active = true) :
    exec i s = .next (rejectBusy s) := by
  rw [exec_eq, onCommand_busy hf ha]

/-- CP.GRABMSG's checks as one code, and what it writes on 0 (R190). -/
theorem grabmsg_eq (P : Params) (s : State) :
    grabmsg P s =
      let len := (s.rxBuf.get 1).toNat
      let code : Word :=
        if s.rxIdx.toNat < 4 then 1
        else if len > 64 then 1
        else if len > s.rxIdx.toNat then 1
        else if len < 6 then 2
        else if P.crcRxOk (s.rxBuf.slice 0 len) = false then 2
        else 0
      finish code (if code = 0 then { s with outBuf := s.outBuf.setList 0 (s.rxBuf.slice 0 len), rxIdx := 0 } else s) := by
  simp only [grabmsg, crcRecv, Config.headerSize, Config.frameCap, Config.minLen]
  split_ifs <;> simp_all

end Sys2Proof.Machine
end

