-- ==== Sys2Proof/Laws/PerInstr.lean ====
section
/-! SUPPORT. Statements about every instruction as syntax, one lemma per constructor. -/

namespace Sys2Proof.Laws

/-- The opcode and the operands of an instruction can be read back from its word, and its opcode is the
top byte of its row's pattern (30_encoding R90–R92). -/
def FieldsReadBack.Statement (i : Instr) : Prop :=
  fieldOpc (encode i) = i.opcode ∧ (fieldA (encode i), fieldB (encode i), fieldC (encode i)) = i.operands ∧
    (opcodeTable[i.rowIndex]?).map (fun r => fieldOpc r.pattern) = some i.opcode

/-- The fields of any instruction's word. -/
theorem fields_encode (i : Instr) :
    fieldOpc (encode i) = i.opcode ∧ (fieldA (encode i), fieldB (encode i), fieldC (encode i)) = i.operands := by
  obtain ⟨h1, h2, h3, h4⟩ := fields_wordOf i.opcode i.operands.1 i.operands.2.1 i.operands.2.2
  exact ⟨h1, by unfold encode; rw [h2, h3, h4]⟩

theorem fieldsReadBack_of_row {i : Instr} (h : (opcodeTable[i.rowIndex]?).map (fun r => fieldOpc r.pattern) = some i.opcode) :
    FieldsReadBack.Statement i := ⟨(fields_encode i).1, (fields_encode i).2, h⟩

theorem FieldsReadBack.cpWaitstart : FieldsReadBack.Statement .cpWaitstart := fieldsReadBack_of_row rfl
theorem FieldsReadBack.cpSendbyte (v : Byte) : FieldsReadBack.Statement (.cpSendbyte v) := fieldsReadBack_of_row rfl
theorem FieldsReadBack.cpRecvbyte : FieldsReadBack.Statement .cpRecvbyte := fieldsReadBack_of_row rfl
theorem FieldsReadBack.cpWaitmsg : FieldsReadBack.Statement .cpWaitmsg := fieldsReadBack_of_row rfl
theorem FieldsReadBack.cpSendmsg (len : Byte) : FieldsReadBack.Statement (.cpSendmsg len) := fieldsReadBack_of_row rfl
theorem FieldsReadBack.cpGrabmsg : FieldsReadBack.Statement .cpGrabmsg := fieldsReadBack_of_row rfl
theorem FieldsReadBack.crcRun (mode : CrcMode) (len : Byte) : FieldsReadBack.Statement (.crcRun mode len) := fieldsReadBack_of_row rfl
theorem FieldsReadBack.stmMeasure (ch : Channel) : FieldsReadBack.Statement (.stmMeasure ch) := fieldsReadBack_of_row rfl
theorem FieldsReadBack.stmTypeprobe (ch : Channel) : FieldsReadBack.Statement (.stmTypeprobe ch) := fieldsReadBack_of_row rfl
theorem FieldsReadBack.stmChecksum : FieldsReadBack.Statement .stmChecksum := fieldsReadBack_of_row rfl
theorem FieldsReadBack.stmParse : FieldsReadBack.Statement .stmParse := fieldsReadBack_of_row rfl
theorem FieldsReadBack.bufWrite (buf : BufId) (idx v : Byte) : FieldsReadBack.Statement (.bufWrite buf idx v) := fieldsReadBack_of_row rfl
theorem FieldsReadBack.bufRead (buf : BufId) (idx : Byte) : FieldsReadBack.Statement (.bufRead buf idx) := fieldsReadBack_of_row rfl
theorem FieldsReadBack.regRead (reg : RegId) : FieldsReadBack.Statement (.regRead reg) := fieldsReadBack_of_row rfl

end Sys2Proof.Laws
end

