-- ==== Sys2Proof/Tests/Slice0.lean ====
section
/-! SUPPORT. Tests. Expected values come from spec/95_test_vectors (named in each comment) or from the
encodings of spec/30_encoding; the witnesses show that the statements' hypotheses can be met. -/

namespace Sys2Proof.Tests

open Sys2Proof Sys2Proof.Machine

/-! ### WellFormed: an ill-formed term for each check -/

theorem test_wf_refuses_short_send : (Instr.cpSendmsg 5).wellFormed = false := by decide
theorem test_wf_refuses_long_send : (Instr.cpSendmsg 65).wellFormed = false := by decide
theorem test_wf_refuses_short_crc : (Instr.crcRun .send 5).wellFormed = false := by decide
theorem test_wf_refuses_long_crc : (Instr.crcRun .recv 65).wellFormed = false := by decide
theorem test_wf_refuses_index_64 : (Instr.bufWrite .rx 64 0).wellFormed = false := by decide
theorem test_wf_refuses_stm_index_20 : (Instr.bufWrite .stm 20 0).wellFormed = false := by decide
theorem test_wf_refuses_read_64 : (Instr.bufRead .out 64).wellFormed = false := by decide
theorem test_wf_refuses_stm_read_20 : (Instr.bufRead .stm 20).wellFormed = false := by decide
theorem test_wf_accepts_bounds :
    (Instr.cpSendmsg 6).wellFormed = true ∧ (Instr.cpSendmsg 64).wellFormed = true ∧
      (Instr.bufWrite .tx 63 0xFF).wellFormed = true ∧ (Instr.bufRead .stm 19).wellFormed = true := by decide

/-! ### Decode: words written out bit by bit, OPC FA FB FC (30_encoding R90–R93) -/

theorem test_dec_waitstart : decode 0b00000001_00000000_00000000_00000000 = .ok .cpWaitstart := by decide
theorem test_dec_sendbyte : decode 0b00000010_00000000_00000000_10100101 = .ok (.cpSendbyte 0xA5) := by decide
theorem test_dec_recvbyte : decode 0b00000011_00000000_00000000_00000000 = .ok .cpRecvbyte := by decide
theorem test_dec_waitmsg : decode 0b00000100_00000000_00000000_00000000 = .ok .cpWaitmsg := by decide
theorem test_dec_sendmsg : decode 0b00000101_00000000_01000000_00000000 = .ok (.cpSendmsg 64) := by decide
theorem test_dec_grabmsg : decode 0b00000110_00000000_00000000_00000000 = .ok .cpGrabmsg := by decide
theorem test_dec_crcrun : decode 0b00000111_00000001_00000110_00000000 = .ok (.crcRun .recv 6) := by decide
theorem test_dec_measure : decode 0b00010000_00000010_00000000_00000000 = .ok (.stmMeasure .c2) := by decide
theorem test_dec_typeprobe : decode 0b00010001_00000011_00000000_00000000 = .ok (.stmTypeprobe .c3) := by decide
theorem test_dec_checksum : decode 0b00010010_00000000_00000000_00000000 = .ok .stmChecksum := by decide
theorem test_dec_parse : decode 0b00010011_00000000_00000000_00000000 = .ok .stmParse := by decide
theorem test_dec_bufwrite : decode 0b00100000_00000011_00000100_00100000 = .ok (.bufWrite .stm 4 0x20) := by decide
theorem test_dec_bufread : decode 0b00100001_00000010_00000100_00000000 = .ok (.bufRead .out 4) := by decide
theorem test_dec_regread : decode 0b00100010_00001011_00000000_00000000 = .ok (.regRead .cpFail) := by decide

/-- V-ENC: unassigned opcodes. -/
theorem test_dec_unassigned :
    decode 0x00000000 = .error .unassignedOpcode ∧ decode 0x08000000 = .error .unassignedOpcode ∧
      decode 0x14000000 = .error .unassignedOpcode ∧ decode 0x23000000 = .error .unassignedOpcode ∧
      decode 0xFF000000 = .error .unassignedOpcode := by decide

/-- V-ENC: nonzero unused fields. -/
theorem test_dec_unused_fields :
    decode 0x01000001 = .error .unusedField ∧ decode 0x10000100 = .error .unusedField ∧
      decode 0x2103000A = .error .unusedField ∧ decode 0x12000100 = .error .unusedField ∧
      decode 0x0201005A = .error .unusedField := by decide

/-- V-ENC: operands out of range. -/
theorem test_dec_ranges :
    decode 0x05000500 = .error .operandRange ∧ decode 0x05004100 = .error .operandRange ∧
      decode 0x07020600 = .error .operandRange ∧ decode 0x10040000 = .error .operandRange ∧
      decode 0x20031400 = .error .operandRange ∧ decode 0x220C0000 = .error .operandRange := by decide

/-- The words of R96's examples are what the encoder writes. -/
theorem test_enc_examples :
    encode (.cpSendbyte 0x5A) = 0x0200005A ∧ encode (.crcRun .recv 6) = 0x07010600 ∧
      encode (.stmMeasure .c2) = 0x10020000 ∧ encode (.bufWrite .stm 4 0x20) = 0x20030420 ∧
      encode (.regRead .temp) = 0x22020000 := by decide

/-- The table's first rows as the host numbers them (opcode_table.json). -/
theorem test_table_word : decodeTableWord 32 0x01000000 = some .cpWaitstart ∧ decodeTableWord 32 0 = none := by decide

/-! ### The assembler (R96, R97, P2, P3) -/

theorem test_asm_value : assembleLine "cp.sendbyte 0x5A".toList = some [0x0200005A] := by decide
theorem test_asm_char : assembleLine "buf.write stm, 4, ' '".toList = some [0x20030420] := by decide
theorem test_asm_comment : assembleLine "CRC.RUN recv, 6 ; intact".toList = some [0x07010600] := by decide
theorem test_asm_register : assembleLine "reg.read temp".toList = some [0x22020000] := by decide
theorem test_asm_load_string : assembleLine "buf.load stm, 0, \"1 2\\r\"".toList =
    some [0x20030031, 0x20030120, 0x20030232, 0x2003030D] := by decide
theorem test_asm_load_list : assembleLine "buf.load tx, 0, [0x04, 0x06, 0x01, 0x00]".toList =
    some [0x20010004, 0x20010106, 0x20010201, 0x20010300] := by decide

/-! ### Helpers -/

/-- What holds of the state a step ends in; false if it ends in none. -/
def endsIn (r : Result) (p : State → Bool) : Bool :=
  match r with
  | .next t => p t
  | .fault _ => false
  | .refused _ => false

theorem Ends_of_endsIn {r : Result} {p : State → Bool} (h : endsIn r p = true) : Ends r fun t => p t = true := by
  cases r with
  | next t => exact ⟨t, rfl, h⟩
  | fault f => cases h
  | refused f => cases h

/-- A buffer with the bytes `bs` from index 0 on. -/
def bufferOf (bs : List Byte) : Memory := Memory.setList [] 0 bs

/-- The reset state with the clock low. -/
def low : State := withClk false State.reset

/-- A byte transfer in flight: command, direction, cycle and clock level as given. -/
def inTransfer (op : CpOp) (dir : CpDir) (cyc : BitVec 4) (clk : Bool) : State :=
  { State.reset with
    status := { Status.reset with active := true }
    cp := { CpEngine.reset with cps := .xfer, op := op, dir := dir, cyc := cyc }
    lines := { Lines.reset with clkLvl := clk, cpOe := if dir = .tx then cyc.toNat ≤ 9 else cyc = 10 } }

/-- The CP engine in a state without a transfer. -/
def inWait (cps : CpState) : State :=
  { State.reset with
    status := { Status.reset with active := true }
    cp := { CpEngine.reset with cps := cps, op := .waitstart } }

/-- An STM.MEASURE of channel 2 in flight. -/
def inStm (sts : StmState) (edgeEn : Bool) : State :=
  { State.reset with
    status := { Status.reset with active := true }
    lines := { Lines.reset with exc := (PerChannel.all false).set .c2 true }
    stm := { StmEngine.reset with sts := sts, op := .measure, ch := .c2, nmax := 10, edgeEn := edgeEn } }

/-- The reset state with the reply `bs` in `STM_BUF` and `TEMP` 111, `SOIL` 222 (V-PAR). -/
def replied (bs : List Byte) : State := { State.reset with stmBuf := bufferOf bs, temp := 111, soil := 222 }

/-- Scenario A's reply (E6). -/
def replyA : List Byte := [0x31, 0x32, 0x2E, 0x33, 0x20, 0x2D, 0x34, 0x35, 0x2E, 0x36, 0x0D, 0x7A, 0x45, 0x0A]

/-- The sample parse's `TEMP` and `SOIL` as numbers. -/
def parsed (bs : List Byte) : Int × Int :=
  ((parse sampleParams (replied bs)).temp.toInt, (parse sampleParams (replied bs)).soil.toInt)

/-! ### Acceptance and rejection (V-ENC) -/

theorem test_illegal_status : endsIn (takeInput (.cmd 0x23000000) State.reset) (fun t => t.hostRead .status = 0x00000004) = true := by decide
theorem test_legal_status : endsIn (takeInput (.cmd 0x20021300) State.reset) (fun t => t.hostRead .status = 0x00002000) = true := by decide
theorem test_waitstart_status : endsIn (takeInput (.cmd 0x01000000) State.reset) (fun t => t.hostRead .status = 0x00000101) = true := by decide
theorem test_busy_status :
    endsIn (takeInput (.cmd 0x00000000) { inWait .ws1 with status := { Status.reset with active := true, lastOpc := 0x01 } })
      (fun t => t.hostRead .status = 0x00000103) = true := by decide

/-! ### The CP link (V-CP) -/

theorem test_parity_table :
    parity 0x00 = false ∧ parity 0x01 = true ∧ parity 0x03 = false ∧ parity 0x3C = false ∧ parity 0x5A = false ∧
      parity 0x7F = true ∧ parity 0x80 = true ∧ parity 0xA5 = false ∧ parity 0xFF = false := by decide

theorem test_waitstart_wake :
    endsIn (takeInput .wake (inWait .ws1)) (fun t => t.result = 0 && !t.status.active) = true := by decide
theorem test_waitstart_low_clock :
    endsIn (takeInput (.datSet false) (withClk false (inWait .ws1))) (fun t => t.cp.cps = .ws1) = true := by decide
theorem test_sendbyte_low : endsIn (takeInput (.cmd 0x020000A5) low) (fun t => t.lines.cpOe && t.lines.cpOut) = true := by decide
theorem test_sendbyte_high :
    endsIn (takeInput (.cmd 0x020000A5) State.reset) (fun t => t.cp.cps = .sync && !t.lines.cpOe) = true := by decide
theorem test_sendbyte_nack :
    endsIn (takeInput .clkFall { inTransfer .sendbyte .tx 10 true with
      cp := { (inTransfer .sendbyte .tx 10 true).cp with ack := true } }) (fun t => t.result = 2) = true := by decide
theorem test_recv_msb_first :
    endsIn (takeInput .clkRise (inTransfer .recvbyte .rx 1 false)) (fun t => t.cp.shift = 0x01 && t.cp.par) = true := by decide
theorem test_recv_parity_error :
    endsIn (takeInput .clkRise (inTransfer .recvbyte .rx 9 false)) (fun t => t.status.parityErr && t.cp.mis) = true := by decide
theorem test_recv_stores :
    endsIn (takeInput .clkFall { inTransfer .recvbyte .rx 10 true with
      cp := { (inTransfer .recvbyte .rx 10 true).cp with shift := 0x3C } })
      (fun t => t.rxBuf.get 0 = 0x3C && t.rxIdx = 1 && t.result = 0) = true := by decide

/-- V-EXC. -/
theorem test_overrun :
    endsIn (takeInput .clkFall { inTransfer .recvbyte .rx 10 true with rxIdx := 64, status := { Status.reset with active := true, lastOpc := 0x03 } })
      (fun t => t.hostRead .status = 0x00000330 && t.rxIdx = 64 && t.rxBuf = []) = true := by decide

/-- The state of V-EXC. -/
def faulted : State := { State.reset with status := { Status.reset with fault := true, faultCause := some .rxOverrun, lastOpc := 0x03 } }

theorem test_fault_ignores_commands :
    endsIn (takeInput (.cmd 0x22000000) faulted) (fun t => t.hostRead .status = 0x00000330) = true := by decide
theorem test_fault_is_no_result : faulted.outcome = .faulted (some .rxOverrun) := by decide

/-! ### The framer (E1, V-FR) -/

/-- The check value of the default algorithm. -/
theorem test_crc_check : crcDefault [0x31, 0x32, 0x33, 0x34, 0x35, 0x36, 0x37, 0x38, 0x39] = 0x29B1 := by decide +kernel
theorem test_crc_empty : crcDefault [] = 0xFFFF := by decide
theorem test_crc_bodies :
    crcDefault [0x04, 0x06, 0x01, 0x00] = 0xCFA0 ∧ crcDefault [0x01, 0x09, 0x01, 0x00, 0x02, 0x01, 0x07] = 0x86AA ∧
      crcDefault [0x0D, 0x06, 0x01, 0x00] = 0x3CD7 ∧ crcDefault [0x0A, 0x06, 0x01, 0x01, 0x7A] = 0xABE7 := by decide +kernel
theorem test_crc_send :
    (crcRun sampleParams .send 6 { State.reset with txBuf := bufferOf [0x04, 0x06, 0x00, 0x00] }).txBuf =
      bufferOf [0x04, 0x06, 0x00, 0x00, 0x91, 0xFC] := by decide +kernel
theorem test_crc_recv :
    (crcRun sampleParams .recv 6 { State.reset with rxBuf := bufferOf [0x04, 0x06, 0x01, 0x00, 0xA0, 0xCE] }).result = 0 := by decide +kernel

/-- CP.GRABMSG of `bs` with `n` bytes received and `OUT_BUF` at EE: result, index, first and seventh byte out. -/
def grabbed (bs : List Byte) (n : BitVec 7) : Word × BitVec 7 × Byte × Byte :=
  let t := grabmsg sampleParams { State.reset with rxBuf := bufferOf bs, rxIdx := n, outBuf := bufferOf (List.replicate 8 0xEE) }
  (t.result, t.rxIdx, t.outBuf.get 0, t.outBuf.get 6)

theorem test_grab_underflow : grabbed [0x04, 0x06, 0x01] 3 = (1, 3, 0xEE, 0xEE) := by decide
theorem test_grab_long : grabbed [0x04, 0x41, 0x01, 0x00] 6 = (1, 6, 0xEE, 0xEE) := by decide
theorem test_grab_partial : grabbed [0x04, 0x06, 0x01, 0x00, 0xA0] 5 = (1, 5, 0xEE, 0xEE) := by decide
theorem test_grab_short : grabbed [0x04, 0x05, 0x01, 0x00, 0xA0, 0xCF] 6 = (2, 6, 0xEE, 0xEE) := by decide
theorem test_grab_crc : grabbed [0x04, 0x06, 0x01, 0x00, 0xA0, 0xCE] 6 = (2, 6, 0xEE, 0xEE) := by decide +kernel
theorem test_grab_ok : grabbed [0x04, 0x06, 0x01, 0x00, 0xA0, 0xCF, 0x77, 0x88] 8 = (0, 0, 0x04, 0xEE) := by decide +kernel

/-- E7: a length of 200 ends CP.WAITMSG at the fourth byte. -/
def atFourth (len : Byte) : State :=
  { inTransfer .waitmsg .rx 10 true with rxBuf := bufferOf [0x04, len, 0x01], rxIdx := 3 }

theorem test_waitmsg_long : endsIn (takeInput .clkFall (atFourth 200)) (fun t => t.result = 1 && t.rxIdx = 0 && !t.status.active) = true := by decide
theorem test_waitmsg_goes_on : endsIn (takeInput .clkFall (atFourth 64)) (fun t => t.rxIdx = 4 && t.status.active) = true := by decide

/-- A CP.SENDMSG 6 at the end of byte `i`, with `n` failures and the acknowledgment given (V-FR). -/
def sending (i : BitVec 7) (n : BitVec 3) (ack : Bool) : State :=
  { inTransfer .sendmsg .tx 10 true with
    cp := { (inTransfer .sendmsg .tx 10 true).cp with len := 6, txi := i, fail := n, ack := ack }
    txBuf := bufferOf [0x04, 0x06, 0x01, 0x00, 0xA0, 0xCF] }

theorem test_sendmsg_last : endsIn (takeInput .clkFall (sending 5 0 false)) (fun t => t.result = 0 && !t.status.active && t.cp.fail = 0) = true := by decide
theorem test_sendmsg_fifth_nack : endsIn (takeInput .clkFall (sending 4 4 true)) (fun t => !t.status.active && t.cp.fail = 5 && t.cp.txi = 4) = true := by decide
theorem test_sendmsg_retry : endsIn (takeInput .clkFall (sending 2 0 true)) (fun t => t.status.active && t.cp.shift = 0x01 && t.cp.fail = 1) = true := by decide

/-! ### Frames (R105, R106, C1) -/

theorem test_frame_compose :
    Frame.compose sampleParams ⟨0x01, 0x01, 0x00, [0x02, 0x01, 0x07]⟩ =
      [0x01, 0x09, 0x01, 0x00, 0x02, 0x01, 0x07, 0xAA, 0x86] := by decide +kernel
theorem test_frame_types :
    frameTypeOf 0x0D = some .requestSensorType ∧ frameTypeOf 0x00 = none ∧ frameTypeOf 0x0E = none := by decide

/-! ### The sensor channel (V-STM) -/

theorem test_measure_start :
    endsIn (takeInput (.cmd 0x10020000) State.reset)
      (fun t => t.hostRead .status = 0x00001001 && t.lines.exc = ⟨false, false, true, false⟩ && t.stm.sts = .exciting) = true := by decide
theorem test_typeprobe_start :
    endsIn (takeInput (.cmd 0x11000000) State.reset) (fun t => t.stm.nmax = 3 && t.lines.exc.get .c0) = true := by decide
theorem test_start_bit : endsIn (takeInput (.rxSet .c2 false) (inStm .armed true)) (fun t => t.stm.sts = .sampling) = true := by decide
theorem test_edge_before_armed :
    endsIn (takeInput (.rxSet .c2 false) (inStm .exciting false)) (fun t => t.stm.sts = .exciting && !t.lines.rxLvl.get .c2) = true := by decide

/-- An STM.MEASURE with the reply A stored, at a rollover count. -/
def measured (n : BitVec 4) : State :=
  { inStm .armed true with
    stmBuf := bufferOf replyA
    stm := { (inStm .armed true).stm with lastv := true, lastb := 0x0A, tocnt := n } }

/-- V-STM: the line feed is looked for before the timeout; the reading is scenario A's. -/
theorem test_rollover_reads :
    (countRollover sampleParams (measured 9)).result = 0 ∧ (countRollover sampleParams (measured 9)).temp.toInt = 123 ∧
      (countRollover sampleParams (measured 9)).soil.toInt = -456 := by decide
theorem test_rollover_times_out :
    endsIn (takeInput .rollover { inStm .armed true with stm := { (inStm .armed true).stm with tocnt := 9 } })
      (fun t => t.result = 2 && t.stm.tocnt = 10 && !t.lines.exc.get .c2) = true := by decide
theorem test_typeprobe_registers :
    (finishStm sampleParams false { measured 0 with stm := { (measured 0).stm with op := .typeprobe, ch := .c0 } }).stype.c0 = 0x7A := by decide

/-! ### Checksum and parser (V-PAR) -/

theorem test_sum_a : checksum (bufferOf replyA) = 0 ∧ parsed replyA = (123, -456) := by decide
theorem test_sum_terminator_first : checksum (bufferOf [0x0D, 0x7A, 0x27, 0x0A]) = 0 ∧ parsed [0x0D, 0x7A, 0x27, 0x0A] = (0, 0) := by decide
theorem test_sum_no_cr :
    checksum (bufferOf [0x31, 0x32, 0x2E, 0x33, 0x20, 0x2D, 0x34, 0x35, 0x2E, 0x36, 0x7A, 0x45, 0x0A]) = 1 := by decide
theorem test_sum_cr_17 : checksum (bufferOf (List.replicate 16 0x20 ++ [0x39, 0x0D, 0x7A, 0x20])) = 0 := by decide
theorem test_sum_cr_18 : checksum (bufferOf (List.replicate 17 0x20 ++ [0x39, 0x0D, 0x7A])) = 1 := by decide
theorem test_parse_unrecognized :
    parsed [0x31, 0x32, 0x2E, 0x33, 0x20, 0x2D, 0x34, 0x35, 0x2E, 0x36, 0x0D, 0x71, 0x3C, 0x0A] = (111, 222) := by decide
theorem test_parse_minus_first : parsed [0x2D, 0x35, 0x2E, 0x30, 0x20, 0x31, 0x32, 0x0D, 0x7A, 0x2A, 0x0A] = (-50, 12) := by decide
theorem test_parse_one_field : parsed [0x37, 0x0D, 0x7A, 0x5E, 0x0A] = (0, 7) := by decide
theorem test_parse_no_space : parsed [0x31, 0x32, 0x2D, 0x33, 0x0D, 0x7A, 0x2A, 0x0A] = (12, -3) := by decide
theorem test_parse_signs_only : parsed [0x2D, 0x20, 0x2D, 0x0D, 0x7A, 0x21, 0x0A] = (0, 0) := by decide
theorem test_parse_non_digit : parsed [0x31, 0x41, 0x0D, 0x7A, 0x59, 0x0A] = (0, 27) := by decide
theorem test_parse_wraps :
    parsed [0x32, 0x31, 0x34, 0x37, 0x34, 0x38, 0x33, 0x36, 0x34, 0x38, 0x0D, 0x7A, 0x36, 0x0A] = (0, -2147483648) := by decide
theorem test_parse_family_two : parsed [0x2D, 0x35, 0x20, 0x31, 0x2E, 0x35, 0x0D, 0xF2, 0x35, 0x0A] = (-25, 85) := by decide
theorem test_parse_family_three : parsed [0x31, 0x30, 0x20, 0x32, 0x30, 0x0D, 0xF3, 0x43, 0x0A] = (10, 20) := by decide
theorem test_parse_cr_18 : parsed (List.replicate 17 0x20 ++ [0x39, 0x0D, 0x7A]) = (0, 9) := by decide
theorem test_parse_cr_19 : parsed (List.replicate 18 0x32 ++ [0x20, 0x0D]) = (111, 222) := by decide

/-! ### Host access (V-HOST) -/

theorem test_lines_word : regValue State.reset .lines = 0x00000F0B := by decide
theorem test_stm_last_word : regValue { State.reset with stm := { StmEngine.reset with lastv := true, lastb := 0x0A } } .stmLast = 0x0000010A := by decide
theorem test_bufwrite :
    endsIn (takeInput (.cmd 0x20010004) State.reset) (fun t => t.txBuf = [(0, 0x04)] && t.result = 0) = true := by decide
theorem test_bufread :
    endsIn (takeInput (.cmd 0x21010000) { State.reset with txBuf := [(0, 0x04)] }) (fun t => t.result = 0x00000004) = true := by decide

/-! ### Witnesses: the hypotheses of each statement that has any, met together -/

theorem test_hyp_DecodeOfEncode : (Instr.cpSendmsg 6).wellFormed = true ∧ (Instr.bufWrite .stm 19 0xFF).wellFormed = true := by decide

theorem test_hyp_EncodeOfDecode : decode 0x20031300 = .ok (.bufWrite .stm 19 0x00) := by decide

theorem test_hyp_OpcodeRowsDisjoint : ∃ r ∈ opcodeTable, r.fits 0x10020000 = true := by decide

/-- Every disjunct of the legal ranges at its bounds. -/
theorem test_hyp_IllegalWordsRejected_legal :
    legalByRanges 0x13000000 ∧ legalByRanges 0x020000FF ∧ legalByRanges 0x05000600 ∧ legalByRanges 0x05004000 ∧
      legalByRanges 0x07014000 ∧ legalByRanges 0x11030000 ∧ legalByRanges 0x20023FFF ∧ legalByRanges 0x200313FF ∧
      legalByRanges 0x21023F00 ∧ legalByRanges 0x21031300 ∧ legalByRanges 0x220B0000 := by
  refine ⟨?_, ?_, ?_, ?_, ?_, ?_, ?_, ?_, ?_, ?_, ?_⟩ <;> decide

/-- Words just outside the ranges. -/
theorem test_hyp_IllegalWordsRejected_illegal :
    ¬legalByRanges 0x05000500 ∧ ¬legalByRanges 0x05004100 ∧ ¬legalByRanges 0x11040000 ∧ ¬legalByRanges 0x20024000 ∧
      ¬legalByRanges 0x20031400 ∧ ¬legalByRanges 0x220C0000 ∧ ¬legalByRanges 0x14000000 ∧ State.reset.Ready := by
  refine ⟨?_, ?_, ?_, ?_, ?_, ?_, ?_, ?_⟩ <;> decide

theorem test_hyp_BufLoadExpands : 19 + [(0x0D : Byte)].length ≤ BufId.stm.cap ∧ 0 + (List.replicate 64 (0x00 : Byte)).length ≤ BufId.tx.cap := by decide

theorem test_hyp_CommandOrder :
    faulted.status.fault = true ∧ ((inWait .ws1).status.fault = false ∧ (inWait .ws1).status.active = true) ∧
      (State.reset.Ready ∧ decode 0x23000000 = .error .unassignedOpcode) ∧
      (State.reset.Ready ∧ decode 0x01000000 = .ok .cpWaitstart) := by decide

theorem test_hyp_LegalCommandsAccepted : (Instr.crcRun .recv 64).wellFormed = true ∧ State.reset.Ready := by decide

/-- The host's write of CP.WAITSTART as the next input. -/
def commanded : State := State.reset.withFetchWord 32 0x01000000

theorem test_hyp_StepRunsDecoded :
    (commanded.inbox = .cmd 0x01000000 :: [] ∧ decode 0x01000000 = .ok .cpWaitstart) ∧ State.reset.inbox = [] := by decide

/-- The step after a write runs the command. -/
theorem test_step_runs : endsIn (step commanded) (fun t => t.cp.op = .waitstart && t.inbox = []) = true := by decide

theorem test_hyp_WaitstartAccepted : State.reset.Ready := by decide

theorem test_hyp_SendbyteAccepted :
    (State.reset.Ready ∧ State.reset.lines.clkLvl = true) ∧ (low.Ready ∧ low.lines.clkLvl = false) := by decide

theorem test_hyp_ReceivesAccepted : State.reset.Ready ∧ low.Ready := by decide

theorem test_hyp_SendmsgAccepted : legalLen 6 = true ∧ legalLen 64 = true ∧ State.reset.Ready ∧ low.Ready := by decide

theorem test_hyp_StmCommandsAccepted : State.reset.Ready := by decide

/-- A frame of `len` declared bytes of which `n` are in. -/
def framed (len : Byte) (n : BitVec 7) : State :=
  { State.reset with rxBuf := bufferOf [0x04, len, 0x01, 0x00, 0xA0, 0xCF], rxIdx := n }

/-- Both premises, at each check of R190 but the CRC, which is an open parameter. -/
theorem test_hyp_GrabmsgExtracts :
    (framed 6 6).Ready ∧ (framed 6 6).BuffersOk ∧ (framed 6 3).BuffersOk ∧ (framed 65 6).BuffersOk ∧
      (framed 7 6).BuffersOk ∧ (framed 5 6).BuffersOk := by
  refine ⟨?_, ?_, ?_, ?_, ?_, ?_⟩ <;> decide

theorem test_grab_codes : grabCode (framed 6 3) = 1 ∧ grabCode (framed 65 6) = 1 ∧ grabCode (framed 7 6) = 1 ∧ grabCode (framed 5 6) = 2 := by decide

/-- A frame without payload. -/
def emptyFrame : Frame := ⟨0x04, 0x01, 0x00, []⟩

/-- The reset state with the empty frame received; its CRC is an open parameter. -/
def receivedFrame : State :=
  { State.reset with rxBuf := Memory.setList [] 0 (emptyFrame.compose params), rxIdx := 6 }

theorem length_compose_empty : (emptyFrame.compose params).length = 6 := rfl

theorem test_hyp_FrameRoundTrip :
    emptyFrame.legal = true ∧ receivedFrame.Ready ∧ receivedFrame.BuffersOk ∧
      receivedFrame.rxBuf.slice 0 emptyFrame.length = emptyFrame.compose params ∧
      receivedFrame.rxIdx.toNat = emptyFrame.length := by
  refine ⟨by decide, ⟨rfl, rfl⟩, ⟨?_, Memory.nil_wf _, Memory.nil_wf _, Memory.nil_wf _⟩, ?_, rfl⟩
  · exact Memory.setList_wf _ (Memory.nil_wf _) (by rw [length_compose_empty]; decide)
  · apply List.ext_getElem
    · rw [Memory.slice_length]; rfl
    · intro i h h'
      rw [Memory.slice_getElem]
      rw [length_compose_empty] at h'
      show (Memory.setList [] 0 (emptyFrame.compose params)).get (0 + i) = _
      rw [Memory.get_setList (cap := 64) _ (Memory.nil_wf _) (by rw [length_compose_empty]; decide), dif_pos (by rw [length_compose_empty]; omega)]
      simp

/-- A legal frame at the greatest payload, and none beyond it. -/
theorem test_frame_legal_bound :
    Frame.legal ⟨0x02, 0x01, 0x00, List.replicate 58 0x00⟩ = true ∧ Frame.legal ⟨0x02, 0x01, 0x00, List.replicate 59 0x00⟩ = false := by decide

theorem test_hyp_CrcSendWrites : legalLen 6 = true ∧ legalLen 64 = true ∧ State.reset.Ready ∧ State.reset.BuffersOk := by decide

theorem test_hyp_CrcRecvReports : legalLen 6 = true ∧ legalLen 64 = true ∧ State.reset.Ready := by decide

/-- The premises, and a second state whose `RX_BUF` is what the first's CRC.RUN send left in `TX_BUF`. -/
theorem test_hyp_CrcSendThenReceive :
    legalLen 6 = true ∧ State.reset.Ready ∧ State.reset.BuffersOk ∧
      ∀ t : State, ∃ u : State, u.Ready ∧ u.rxBuf = t.txBuf :=
  ⟨by decide, by decide, by decide, fun t => ⟨{ State.reset with rxBuf := t.txBuf }, ⟨rfl, rfl⟩, rfl⟩⟩

theorem test_hyp_ChecksumVerdict : (replied replyA).Ready ∧ checksum (replied replyA).stmBuf = 0 := by decide

theorem test_hyp_ChecksumNeverTerminates : findCr (replied replyA).stmBuf = some 10 ∧ checksumPasses (replied replyA).stmBuf = true := by decide

/-- Any reply that fits, in `STM_BUF` of a ready state. -/
theorem replied_holds {bs : List Byte} (h : bs.length ≤ 20) :
    (replied bs).Ready ∧ (replied bs).stmBuf.slice 0 bs.length = bs := by
  refine ⟨⟨rfl, rfl⟩, List.ext_getElem (Memory.slice_length _ _ _) fun i _ h' => ?_⟩
  rw [Memory.slice_getElem]
  show (Memory.setList [] 0 bs).get (0 + i) = _
  rw [Memory.get_setList (cap := 20) bs (Memory.nil_wf _) (by omega), dif_pos (by omega)]
  simp

/-- The premises of ParseReadsDecimals on one reply, in `STM_BUF` of a ready state. -/
abbrev ParsePremises (signed negA negB : Bool) (d : Byte) (pre b sep a : List Byte) : Prop :=
  let reply := pre ++ b ++ sep ++ a ++ [0x0D, d]
  (replied reply).Ready ∧ discriminates signed d ∧ (isField signed a = true ∧ isField signed b = true) ∧ 0x0D ∉ pre ∧
    precedes signed negB pre ∧ separates signed negA (pre ++ b) sep ∧ reply.length ≤ 20 ∧
    (replied reply).stmBuf.slice 0 reply.length = reply

/-- The premises from those on the bytes alone. -/
theorem parsePremises_of {signed negA negB : Bool} {d : Byte} {pre b sep a : List Byte} (hd : discriminates signed d)
    (h : (isField signed a = true ∧ isField signed b = true) ∧ 0x0D ∉ pre ∧ precedes signed negB pre ∧
      separates signed negA (pre ++ b) sep ∧ (pre ++ b ++ sep ++ a ++ [0x0D, d]).length ≤ 20) :
    ParsePremises signed negA negB d pre b sep a :=
  ⟨(replied_holds h.2.2.2.2).1, hd, h.1, h.2.1, h.2.2.1, h.2.2.2.1, h.2.2.2.2, (replied_holds h.2.2.2.2).2⟩

/-- Family 1 (V-PAR): scenario A, a minus without a space, a minus on the left field, one field, no
byte at all, a signed field alone, a minus of field B right of other bytes, and the longest reply. -/
theorem test_hyp_ParseReadsDecimals_signed :
    ParsePremises true true false 0x7A [] [0x31, 0x32, 0x2E, 0x33] [0x20, 0x2D] [0x34, 0x35, 0x2E, 0x36] ∧
      ParsePremises true true false 0x7A [] [0x31, 0x32] [0x2D] [0x33] ∧
      ParsePremises true false true 0x7A [0x2D] [0x35, 0x2E, 0x30] [0x20] [0x31, 0x32] ∧
      ParsePremises true false false 0x7A [] [] [] [0x37] ∧ ParsePremises true false false 0x7A [] [] [] [] ∧
      ParsePremises true true false 0x7A [] [] [0x2D] [0x33] ∧
      ParsePremises true true true 0x7A [0x41, 0x2D] [0x35] [0x20, 0x2D] [0x31] ∧
      ParsePremises true false false 0x7A (List.replicate 16 0x20) [] [0x20] [0x39] := by
  refine ⟨?_, ?_, ?_, ?_, ?_, ?_, ?_, ?_⟩ <;> exact parsePremises_of (.inl ⟨rfl, rfl⟩) (by decide)

/-- Families 2 and 3 (V-PAR), where a minus and a point are bytes of the field. -/
theorem test_hyp_ParseReadsDecimals_unsigned :
    ParsePremises false false false params.fam2Code [] [0x2D, 0x35] [0x20] [0x31, 0x2E, 0x35] ∧
      ParsePremises false false false params.fam3Code [] [0x31, 0x30] [0x20] [0x32, 0x30] ∧
      ParsePremises false false false params.fam3Code [0x20] [0x31] [0x20] [] ∧
      ParsePremises false false false params.fam2Code [] [] [] [] :=
  ⟨parsePremises_of (.inr ⟨rfl, .inl rfl⟩) (by decide), parsePremises_of (.inr ⟨rfl, .inr rfl⟩) (by decide),
    parsePremises_of (.inr ⟨rfl, .inr rfl⟩) (by decide), parsePremises_of (.inr ⟨rfl, .inl rfl⟩) (by decide)⟩

/-- Decimal fields: empty, with a point, and of nine digits without one. -/
theorem test_hyp_ParseReadsDecimals_decimal :
    isDecimalField [] = true ∧ isDecimalField [0x34, 0x35, 0x2E, 0x36] = true ∧
      isDecimalField (List.replicate 9 0x39) = true ∧ 0x2E ∉ List.replicate 9 (0x39 : Byte) := by decide

/-- V-PAR's values through the statement's own functions: `45.6`, `-45.6` and family 2's `1.5`. -/
theorem test_field_words :
    fieldWord true [0x34, 0x35, 0x2E, 0x36] = 456 ∧ (signedWord true (fieldWord true [0x34, 0x35, 0x2E, 0x36])).toInt = -456 ∧
      fieldWord false [0x31, 0x2E, 0x35] = 85 ∧ (fieldWord false [0x2D, 0x35]).toInt = -25 := by decide

/-- No CR at an index of at most 18: V-PAR's reply with its CR at 19. -/
theorem test_hyp_ParseUnrecognized :
    (replied (List.replicate 18 0x32 ++ [0x20, 0x0D])).Ready ∧
      ∀ n, n ≤ 18 → (replied (List.replicate 18 0x32 ++ [0x20, 0x0D])).stmBuf.get n = 0x0D → False := by
  refine ⟨by decide, fun n hn => ?_⟩
  interval_cases n <;> decide

theorem test_hyp_ParseIdempotent : ∃ s t : State, s.Ready ∧ s.stmBuf = bufferOf replyA ∧ exec .stmParse s = .next t ∧ ∃ u, exec .stmParse t = .next u :=
  ⟨replied replyA, _, by decide, rfl, rfl, _, rfl⟩

theorem test_hyp_BufWriteStores : legalIdx .stm 19 = true ∧ legalIdx .out 63 = true ∧ State.reset.Ready ∧ State.reset.BuffersOk := by decide

theorem test_hyp_BufReadReturns : legalIdx .stm 19 = true ∧ legalIdx .rx 63 = true ∧ State.reset.Ready := by decide

theorem test_hyp_RegReadReturns : State.reset.Ready := by decide

/-- The two waits; an event to drop in each, a data fall with the clock low among them. -/
theorem test_hyp_WaitstartInputs :
    ((inWait .ws1).status.fault = false ∧ (inWait .ws1).stm.sts = .idle ∧ (inWait .ws1).cp.cps = .ws1 ∧
        (inWait .ws1).lines.cpOe = false ∧ (inWait .ws1).lines.datPeer = true ∧ (inWait .ws1).lines.clkLvl = true) ∧
      ((inWait .ws2).status.fault = false ∧ (inWait .ws2).stm.sts = .idle ∧ (inWait .ws2).cp.cps = .ws2 ∧
        (inWait .ws2).lines.clkLvl = true) ∧
      (isEvent (.datSet false) = true ∧ Input.datSet false ≠ .wake ∧ (withClk false (inWait .ws1)).cp.cps = .ws1 ∧
        (withClk false (inWait .ws1)).lines.clkLvl = false) ∧
      isEvent .bitTick = true ∧ Input.bitTick ≠ .wake ∧ Input.bitTick ≠ .clkFall := by decide

theorem test_hyp_SyncWaitsForFall :
    (inWait .sync).status.fault = false ∧ (inWait .sync).cp.cps = .sync ∧ (inWait .sync).lines.clkLvl = true := by decide

/-- Each clause at the ends of its range of cycles. -/
theorem test_hyp_TransmitCycles :
    (inTransfer .sendbyte .tx 10 false).status.fault = false ∧ (inTransfer .sendbyte .tx 10 false).cp.cps = .xfer ∧
      (inTransfer .sendbyte .tx 10 false).cp.dir = .tx ∧ (inTransfer .sendbyte .tx 10 false).lines.clkLvl = false ∧
      (inTransfer .sendbyte .tx 1 true).cp.cyc.toNat ≤ 7 ∧ (inTransfer .sendbyte .tx 7 true).cp.cyc.toNat ≤ 7 ∧
      (inTransfer .sendbyte .tx 7 true).lines.clkLvl = true ∧ (inTransfer .sendbyte .tx 8 true).cp.cyc = 8 ∧
      (inTransfer .sendbyte .tx 9 true).cp.cyc = 9 := by decide

theorem test_hyp_SendbyteEnds :
    (inTransfer .sendbyte .tx 10 true).status.fault = false ∧ (inTransfer .sendbyte .tx 10 true).cp.cps = .xfer ∧
      (inTransfer .sendbyte .tx 10 true).cp.dir = .tx ∧ (inTransfer .sendbyte .tx 10 true).cp.cyc = 10 ∧
      (inTransfer .sendbyte .tx 10 true).cp.op = .sendbyte ∧ (inTransfer .sendbyte .tx 10 true).lines.clkLvl = true := by decide

/-- An ACK before and at the end of the frame, a NACK before and at the end of the budget. -/
theorem test_hyp_SendmsgByteDone :
    (sending 0 0 false).status.fault = false ∧ (sending 0 0 false).cp.cps = .xfer ∧ (sending 0 0 false).cp.dir = .tx ∧
      (sending 0 0 false).cp.cyc = 10 ∧ (sending 0 0 false).cp.op = .sendmsg ∧ (sending 0 0 false).lines.clkLvl = true ∧
      (sending 0 0 false).SendmsgOk ∧ (sending 5 0 false).SendmsgOk ∧ (sending 5 0 true).SendmsgOk ∧
      (sending 0 4 true).SendmsgOk ∧ (sending 0 4 true).cp.ack = true ∧ (sending 5 0 false).cp.ack = false := by decide

/-- Each clause at the ends of its range of cycles. -/
theorem test_hyp_ReceiveCycles :
    (inTransfer .recvbyte .rx 1 false).status.fault = false ∧ (inTransfer .recvbyte .rx 1 false).cp.cps = .xfer ∧
      (inTransfer .recvbyte .rx 1 false).cp.dir = .rx ∧ (inTransfer .recvbyte .rx 8 false).cp.cyc.toNat ≤ 8 ∧
      (inTransfer .recvbyte .rx 8 false).lines.clkLvl = false ∧ (inTransfer .recvbyte .rx 9 false).cp.cyc = 9 ∧
      (inTransfer .recvbyte .rx 10 false).cp.cyc = 10 ∧ (inTransfer .recvbyte .rx 8 true).lines.clkLvl = true ∧
      (inTransfer .recvbyte .rx 9 true).cp.cyc = 9 := by decide

/-- A CP.RECVBYTE at the end of its byte with `n` bytes in the buffer. -/
def receivedAt (n : BitVec 7) : State := { inTransfer .recvbyte .rx 10 true with rxIdx := n }

/-- With the buffer empty, and one byte short of full. -/
theorem test_hyp_RecvbyteAppends :
    (receivedAt 0).status.fault = false ∧ (receivedAt 0).cp.cps = .xfer ∧ (receivedAt 0).cp.dir = .rx ∧
      (receivedAt 0).cp.cyc = 10 ∧ (receivedAt 0).cp.op = .recvbyte ∧ (receivedAt 0).lines.clkLvl = true ∧
      (receivedAt 63).rxIdx.toNat < 64 ∧ (receivedAt 63).BuffersOk := by decide

theorem test_hyp_OverrunFaults :
    (receivedAt 64).status.fault = false ∧ (receivedAt 64).cp.cps = .xfer ∧ (receivedAt 64).cp.dir = .rx ∧
      (receivedAt 64).cp.cyc = 10 ∧ (receivedAt 64).lines.clkLvl = true ∧ (receivedAt 64).rxIdx = 64 := by decide

/-- A CP.WAITMSG at the end of byte `i`, counted from 0, of a frame of `len` declared bytes. -/
def waitingAt (i : BitVec 7) (len : Byte) : State := { atFourth len with rxIdx := i }

/-- The premises of WaitmsgByteDone there. -/
abbrev WaitmsgPremises (s : State) : Prop :=
  s.status.fault = false ∧ s.cp.cps = .xfer ∧ s.cp.dir = .rx ∧ s.cp.cyc = 10 ∧ s.cp.op = .waitmsg ∧
    s.lines.clkLvl = true ∧ s.rxIdx.toNat < 64

/-- A declared length out of range at the header, just outside its bounds (5 and 65) and far from them;
in range there (6 and 64); the declared length reached (6 and 64); the header not yet in. -/
theorem test_hyp_WaitmsgByteDone :
    WaitmsgPremises (waitingAt 3 200) ∧ WaitmsgPremises (waitingAt 3 5) ∧ WaitmsgPremises (waitingAt 3 65) ∧
      WaitmsgPremises (waitingAt 3 6) ∧ WaitmsgPremises (waitingAt 3 64) ∧ WaitmsgPremises (waitingAt 5 6) ∧
      WaitmsgPremises (waitingAt 63 64) ∧ WaitmsgPremises (waitingAt 0 0) ∧ WaitmsgPremises (waitingAt 2 6) := by
  refine ⟨?_, ?_, ?_, ?_, ?_, ?_, ?_, ?_, ?_⟩ <;> decide

/-- R182 at those bounds: 5 and 65 end with 1 and `RX_IDX` 0, a reached length ends with 0. -/
theorem test_waitmsg_bounds :
    (∀ len ∈ [(5 : Byte), 65], endsIn (takeInput .clkFall (waitingAt 3 len)) (fun t => t.result = 1 && t.rxIdx = 0) = true) ∧
      endsIn (takeInput .clkFall (waitingAt 3 6)) (fun t => t.rxIdx = 4 && t.status.active) = true ∧
      endsIn (takeInput .clkFall (waitingAt 5 6)) (fun t => t.result = 0 && t.rxIdx = 6 && !t.status.active) = true ∧
      endsIn (takeInput .clkFall (waitingAt 63 64)) (fun t => t.result = 0 && t.rxIdx = 64 && !t.status.active) = true := by decide

theorem test_hyp_PeerReadsSentByte : (0 ≤ 8 ∧ 8 ≤ 8) ∧ low.Ready ∧ low.lines.clkLvl = false := by decide

theorem test_hyp_SendbyteRun : low.Ready ∧ low.lines.clkLvl = false := by decide

theorem test_hyp_RecvbyteRun : low.Ready ∧ low.lines.clkLvl = false ∧ low.rxIdx.toNat < 64 ∧ low.BuffersOk := by decide

theorem test_hyp_RecvbyteRun_last : ({ low with rxIdx := 63 } : State).Ready ∧ ({ low with rxIdx := 63 } : State).rxIdx.toNat < 64 := by decide

theorem inv_receivedAt_64 : (receivedAt 64).Inv :=
  ⟨by decide, by decide, by decide, by decide, by decide, by decide, by decide⟩

theorem test_hyp_OnlyRecvbyteFaults :
    (receivedAt 64).Inv ∧ (receivedAt 64).status.fault = false ∧
      ∃ t, takeInput .clkFall (receivedAt 64) = .next t ∧ t.status.fault = true :=
  ⟨inv_receivedAt_64, rfl, _, rfl, rfl⟩

theorem test_hyp_DelayDoneArms : (inStm .exciting false).status.fault = false ∧ (inStm .exciting false).stm.sts = .exciting := by decide

/-- The selected channel and another one. -/
theorem test_hyp_StartBitSelected :
    (inStm .armed true).status.fault = false ∧ (inStm .armed true).stm.sts = .armed ∧ (inStm .armed true).stm.edgeEn = true ∧
      (inStm .armed true).lines.rxLvl.get .c2 = true ∧ (inStm .armed true).lines.rxLvl.get .c0 = true := by decide

/-- A sampling engine at bit count `k` and ring index `i`. -/
def samplingAt (k : BitVec 4) (i : BitVec 5) : State :=
  { inStm .sampling false with stmIdx := i, stm := { (inStm .sampling false).stm with k := k } }

/-- The first and the last data bit, the stop bit, and the ring's last index. -/
theorem test_hyp_BitTickSamples :
    (samplingAt 9 0).status.fault = false ∧ (samplingAt 9 0).stm.sts = .sampling ∧ (samplingAt 9 19).stmIdx.toNat < 20 ∧
      (samplingAt 9 19).BuffersOk ∧ (samplingAt 9 0).stm.k.toNat ≤ 9 ∧ 2 ≤ (samplingAt 2 0).stm.k.toNat ∧
      (samplingAt 1 19).stm.k = 1 := by decide

/-- R226: the ring's index wraps at 20. -/
theorem test_ring_wraps :
    endsIn (takeInput .bitTick (samplingAt 1 19)) (fun t => t.stmIdx = 0 && t.stm.sts = .armed && t.stm.lastv) = true := by decide

theorem test_hyp_CharacterReceived :
    (inStm .armed true).status.fault = false ∧ (inStm .armed true).stm.sts = .armed ∧ (inStm .armed true).stm.edgeEn = true ∧
      (inStm .armed true).lines.rxLvl.get (inStm .armed true).stm.ch = true ∧ (inStm .armed true).stmIdx.toNat < 20 ∧
      (inStm .armed true).BuffersOk := by decide

theorem test_hyp_RolloverCounts :
    ((measured 0).status.fault = false ∧ (measured 0).stm.sts = .armed ∧ (measured 0).stm.lastb = 0x0A) ∧
      ((inStm .armed true).status.fault = false ∧ (inStm .armed true).stm.sts = .armed ∧ (inStm .armed true).stm.lastv = false) := by decide

/-- Each result: a timeout, a failed checksum, a passed one for each command. -/
theorem test_hyp_FinishStmEnds :
    (finishStm params true (inStm .armed true)).result = 2 ∧ (finishStm params false (inStm .armed true)).result = 1 ∧
      (finishStm sampleParams false (measured 0)).result = 0 ∧ (measured 0).stm.op = .measure := by decide

theorem test_hyp_MeasureTimesOut : State.reset.Ready := by decide

/-- Each clause: an edge, and an input that repeats the level. -/
theorem test_hyp_LineBookkeeping :
    (∃ t, takeInput .clkFall State.reset = .next t) ∧ State.reset.lines.clkLvl = true ∧ low.lines.clkLvl = false ∧
      State.reset.lines.datPeer = true ∧ State.reset.lines.rxLvl.get .c3 = true :=
  ⟨⟨_, rfl⟩, by decide, by decide, by decide, by decide⟩

/-- A receive that waits for its first clock fall. -/
def syncing : State :=
  { inTransfer .recvbyte .rx 1 true with cp := { (inTransfer .recvbyte .rx 1 true).cp with cps := .sync } }

theorem inv_syncing : syncing.Inv :=
  ⟨by decide, by decide, by decide, by decide, by decide, by decide, by decide⟩

theorem inv_inStm : (inStm .exciting false).Inv ∧ (inStm .armed true).Inv ∧ (inStm .sampling false).Inv := by
  refine ⟨⟨?_, ?_, ?_, ?_, ?_, ?_, ?_⟩, ⟨?_, ?_, ?_, ?_, ?_, ?_, ?_⟩, ?_, ?_, ?_, ?_, ?_, ?_, ?_⟩ <;> decide

/-- Each timer input in the states that do not name it, and the sensor's line outside `STM_ARMED` (R212). -/
theorem test_hyp_EventsDropped_named :
    named .bitTick (inStm .armed true) = false ∧ named .delayDone (inStm .armed true) = false ∧
      named .rollover (inStm .sampling false) = false ∧ named .delayDone (inStm .sampling false) = false ∧
      named (.rxSet .c2 false) (inStm .sampling false) = false ∧ named .rollover (inStm .exciting false) = false ∧
      named .bitTick (inStm .exciting false) = false ∧ named (.rxSet .c0 false) (inStm .armed true) = false ∧
      named .wake (inWait .ws2) = false ∧ named .clkRise (inWait .sync) = false := by decide

/-- R307's rows: each state names its own inputs. -/
theorem test_named_rows :
    named .delayDone (inStm .exciting false) = true ∧ named .rollover (inStm .armed true) = true ∧
      named (.rxSet .c2 false) (inStm .armed true) = true ∧ named .bitTick (inStm .sampling false) = true ∧
      named .wake (inWait .ws1) = true ∧ named (.datSet false) (inWait .ws1) = true ∧
      named .clkFall (inWait .ws2) = true ∧ named .clkFall syncing = true ∧ named .clkRise (receivedAt 0) = true := by decide

/-- The fault, the idle engines, a byte transfer in each of its states, an STM command. -/
theorem test_hyp_EventsDropped :
    (faulted.status.fault = true ∧ isEvent .bitTick = true) ∧ (State.reset.cp.cps = .idle ∧ State.reset.stm.sts = .idle) ∧
      ((receivedAt 64).Inv ∧ (receivedAt 64).cp.cps = .xfer) ∧ (syncing.Inv ∧ syncing.cp.cps = .sync ∧ isStmInput .rollover = true) ∧
      ((inStm .armed true).Inv ∧ (inStm .armed true).stm.sts ≠ .idle ∧ isCpInput .clkFall = true) :=
  ⟨⟨rfl, rfl⟩, ⟨rfl, rfl⟩, ⟨inv_receivedAt_64, rfl⟩, ⟨inv_syncing, rfl, rfl⟩, inv_inStm.2.1, by decide, rfl⟩

theorem test_hyp_FaultLeftOnlyByReset : faulted.status.fault = true ∧ Input.wake ≠ .reset := by decide

theorem test_hyp_StickyFlags :
    Input.wake ≠ .reset ∧ (∃ t, takeInput .wake faulted = .next t) ∧ faulted.status.fault = true ∧
      ({ faulted with status := { faulted.status with parityErr := true } } : State).status.parityErr = true :=
  ⟨by decide, ⟨_, rfl⟩, rfl, rfl⟩

/-- An STM.TYPEPROBE of channel 2 at the rollover that ends it, its registry empty. -/
def probed : State :=
  { measured 0 with
    stm := { (measured 0).stm with op := .typeprobe, nmax := 3 }
    stype := PerChannel.all 0x00 }

/-- Each clause: a parse and a probe that change what they write, and a write of `OUT_BUF`. -/
theorem test_hyp_WritersOfOutputs :
    (Input.cmd 0x13000000 ≠ .reset ∧ endsIn (takeInput (.cmd 0x13000000) (replied replyA)) (fun t => t.temp ≠ 111 && t.soil ≠ 222) = true) ∧
      (Input.rollover ≠ .reset ∧ probed.StmOk ∧ endsIn (takeInput .rollover probed) (fun t => t.stype ≠ probed.stype) = true) ∧
      (Input.cmd 0x200200FF ≠ .reset ∧
        endsIn (takeInput (.cmd 0x200200FF) State.reset) (fun t => t.outBuf ≠ State.reset.outBuf) = true) := by decide

theorem test_hyp_ResultWrittenAtEnd :
    Input.clkFall ≠ .reset ∧ endsIn (takeInput .clkFall (inWait .ws2)) (fun t => t.result ≠ (inWait .ws2).result) = true := by decide

theorem inv_reset : State.reset.Inv :=
  ⟨by decide, by decide, by decide, by decide, by decide, by decide, by decide⟩

theorem test_hyp_IdleLinesReleased : State.reset.Inv ∧ State.reset.status.active = false := ⟨inv_reset, rfl⟩

/-- The invariant holds with a command in flight too. -/
theorem test_hyp_InvariantKept : (receivedAt 64).Inv ∧ (inWait .ws1).Inv :=
  ⟨inv_receivedAt_64, by decide, by decide, by decide, by decide, by decide, by decide, by decide⟩

theorem test_hyp_BuffersStayCanonical : State.reset.BuffersOk ∧ ∃ t, step State.reset = .next t := ⟨by decide, _, rfl⟩

end Sys2Proof.Tests
end

section
/-! PROOFS. A step takes the next input and reads none of the inputs after it (00_scope R10, 60_exceptions R306). -/

namespace Sys2Proof.Machine

/-! ### A step is one input taken -/

theorem step_of_inbox_cons {s : State} {i : Input} {rest : List Input} (h : s.inbox = i :: rest) :
    step s = takeInput i { s with inbox := rest } := by
  rw [step, nextInput, h]

theorem step_of_inbox_nil {s : State} (h : s.inbox = []) : step s = .next s := by
  rw [step, nextInput, h]

/-- A word that decodes runs its command (R300). -/
theorem onCmd_of_decode_ok {w : Word} {i : Instr} (h : decode w = .ok i) (s : State) : onCmd w s = exec i s := by
  rw [onCmd, h]

/-- A word that does not decode is a command that is not legal (R303). -/
theorem onCmd_of_decode_error {w : Word} {e : DecodeError} (h : decode w = .error e) (s : State) :
    onCmd w s = onCommand false (fieldOpc w) (fun t => .next t) s := by
  rw [onCmd, h]

/-- Settles O9: the head of the inbox is the input taken, and a word that decodes runs its command. -/
theorem stepRunsDecoded : Obligations.StepRunsDecoded := by
  refine ⟨fun s w rest i hin hdec => ?_, fun s i rest hin => step_of_inbox_cons hin, fun s hin => step_of_inbox_nil hin⟩
  rw [step_of_inbox_cons hin, takeInput, onCmd_of_decode_ok hdec]

/-! ### Replacing the inputs still to come -/

/-- The state with another list of inputs still to come. It is reducible, so that a choice on one of its
other fields is read as the same choice on `s`. -/
abbrev State.withInbox (rest : List Input) (s : State) : State := { s with inbox := rest }

/-- The same answer, with its next state changed by `f`. -/
def mapNext (f : State → State) : Result → Result
  | .next t => .next (f t)
  | .fault r => .fault r
  | .refused r => .refused r

/-- An update of the state that neither reads nor writes the inputs still to come. -/
def UpdateIgnoresInbox (f : State → State) : Prop :=
  ∀ (rest : List Input) (s : State), f (s.withInbox rest) = (f s).withInbox rest

/-- An operation that neither reads nor writes the inputs still to come. -/
def IgnoresInbox (act : State → Result) : Prop :=
  ∀ (rest : List Input) (s : State), act (s.withInbox rest) = mapNext (State.withInbox rest) (act s)

theorem withInbox_buf (rest : List Input) (s : State) (b : BufId) : (s.withInbox rest).buf b = s.buf b := by
  cases b <;> rfl

theorem setBuf_withInbox (rest : List Input) (s : State) (b : BufId) (m : Memory) :
    (s.withInbox rest).setBuf b m = (s.setBuf b m).withInbox rest := by
  cases b <;> rfl

/-- An operation that always goes on, with an update that ignores the inbox. -/
theorem UpdateIgnoresInbox.next {f : State → State} (h : UpdateIgnoresInbox f) : IgnoresInbox fun s => .next (f s) :=
  fun rest s => congrArg Host.Outcome.next (h rest s)

/-! ### The shared operations -/

theorem onCommand_ignoresInbox {legal : Bool} {opc : Byte} {body : State → Result} (h : IgnoresInbox body) :
    IgnoresInbox (onCommand legal opc body) := by
  intro rest s
  simp only [onCommand]
  split_ifs
  · rfl
  · rfl
  · exact h rest (accept opc s)
  · rfl

theorem onEvent_ignoresInbox {act : State → Result} (h : IgnoresInbox act) : IgnoresInbox (onEvent act) := by
  intro rest s
  simp only [onEvent]
  split_ifs
  · rfl
  · exact h rest s

/-- A read whose continuation ignores the inbox; the continuation may read the state too. -/
theorem readByte_withInbox {b : BufId} {i : Nat} {k : State → Byte → Result} (h : ∀ v, IgnoresInbox fun s => k s v)
    (rest : List Input) (s : State) :
    readByte b i (s.withInbox rest) (k (s.withInbox rest)) = mapNext (State.withInbox rest) (readByte b i s (k s)) := by
  simp only [readByte, withInbox_buf]
  split_ifs
  · exact h _ rest s
  · rfl

theorem writeByte_withInbox {b : BufId} {i : Nat} {v : Byte} {k : State → Result} (h : IgnoresInbox k)
    (rest : List Input) (s : State) :
    writeByte b i v (s.withInbox rest) k = mapNext (State.withInbox rest) (writeByte b i v s k) := by
  simp only [writeByte, withInbox_buf, setBuf_withInbox]
  split_ifs
  · exact h rest _
  · rfl

/-! ### The CP engine -/

theorem startCycle1_ignoresInbox : UpdateIgnoresInbox startCycle1 := by
  intro rest s
  simp only [startCycle1]
  cases s.cp.dir <;> rfl

theorem beginTx_ignoresInbox (v : Byte) : UpdateIgnoresInbox (beginTx v) := by
  intro rest s
  rw [beginTx_eq, beginTx_eq]

theorem beginRx_ignoresInbox : UpdateIgnoresInbox beginRx := by
  intro rest s
  rw [beginRx_eq, beginRx_eq]

theorem sendCurrent_ignoresInbox : IgnoresInbox sendCurrent := fun rest s =>
  readByte_withInbox (k := fun s b => .next (beginTx b s)) (fun v => (beginTx_ignoresInbox v).next) rest s

theorem sendmsgDone_ignoresInbox : IgnoresInbox sendmsgDone := by
  intro rest s
  simp only [sendmsgDone]
  split_ifs
  · rfl
  · exact sendCurrent_ignoresInbox rest { s with cp := { s.cp with fail := s.cp.fail + 1 } }
  · rfl
  · exact sendCurrent_ignoresInbox rest { s with cp := { s.cp with txi := s.cp.txi + 1 } }

theorem byteDoneTx_ignoresInbox : IgnoresInbox byteDoneTx := by
  intro rest s
  simp only [byteDoneTx]
  cases s.cp.op with
  | sendmsg => exact sendmsgDone_ignoresInbox rest s
  | none | waitstart | sendbyte | recvbyte | waitmsg => rfl

theorem waitmsgDone_ignoresInbox : IgnoresInbox waitmsgDone := by
  intro rest s
  simp only [waitmsgDone, readByte, withInbox_buf]
  split_ifs
  · rfl
  · rfl
  · exact beginRx_ignoresInbox.next rest s
  · rfl

theorem byteDoneRx_ignoresInbox : IgnoresInbox byteDoneRx := by
  intro rest s
  simp only [byteDoneRx]
  cases s.cp.op with
  | waitmsg => exact waitmsgDone_ignoresInbox rest s
  | none | waitstart | sendbyte | recvbyte | sendmsg => rfl

theorem appendByte_ignoresInbox {b : Byte} {k : State → Result} (h : IgnoresInbox k) :
    IgnoresInbox fun s => appendByte b s k := by
  intro rest s
  simp only [appendByte]
  split_ifs
  · rfl
  · exact writeByte_withInbox (fun rest t => h rest { t with rxIdx := t.rxIdx + 1 }) rest s

theorem txFall_ignoresInbox : IgnoresInbox txFall := by
  intro rest s
  simp only [txFall]
  split_ifs
  · rfl
  · rfl
  · rfl
  · exact byteDoneTx_ignoresInbox rest s
  · rfl

theorem rxFall_ignoresInbox : IgnoresInbox rxFall := by
  intro rest s
  simp only [rxFall]
  split_ifs
  · rfl
  · exact appendByte_ignoresInbox byteDoneRx_ignoresInbox rest { s with lines := { s.lines with cpOe := false } }
  · rfl

theorem txRise_ignoresInbox : UpdateIgnoresInbox txRise := by
  intro rest s
  simp only [txRise]
  split_ifs <;> rfl

theorem rxRise_ignoresInbox : UpdateIgnoresInbox rxRise := by
  intro rest s
  simp only [rxRise]
  split_ifs <;> rfl

theorem xferRise_ignoresInbox : UpdateIgnoresInbox xferRise := by
  intro rest s
  simp only [xferRise]
  cases s.cp.dir with
  | tx => exact txRise_ignoresInbox rest s
  | rx => exact rxRise_ignoresInbox rest s

theorem xferFall_ignoresInbox : IgnoresInbox xferFall := by
  intro rest s
  simp only [xferFall]
  cases s.cp.dir with
  | tx => exact txFall_ignoresInbox rest s
  | rx => exact rxFall_ignoresInbox rest s

theorem cpClkRise_ignoresInbox : IgnoresInbox cpClkRise := by
  intro rest s
  simp only [cpClkRise]
  cases s.cp.cps with
  | xfer => exact xferRise_ignoresInbox.next rest s
  | idle | ws1 | ws2 | sync => rfl

theorem cpClkFall_ignoresInbox : IgnoresInbox cpClkFall := by
  intro rest s
  simp only [cpClkFall]
  cases s.cp.cps with
  | sync => exact startCycle1_ignoresInbox.next rest s
  | xfer => exact xferFall_ignoresInbox rest s
  | idle | ws1 | ws2 => rfl

theorem cpDatFall_ignoresInbox : IgnoresInbox cpDatFall := by
  intro rest s
  simp only [cpDatFall]
  cases s.cp.cps with
  | ws1 => dsimp only; split_ifs <;> rfl
  | idle | ws2 | sync | xfer => rfl

theorem cpWake_ignoresInbox : IgnoresInbox cpWake := by
  intro rest s
  simp only [cpWake]
  cases s.cp.cps <;> rfl

/-! ### The STM engine -/

theorem parse_ignoresInbox (P : Params) : UpdateIgnoresInbox (parse P) := by
  intro rest s
  simp only [parse]
  cases findCr s.stmBuf with
  | none => rfl
  | some t =>
    dsimp only
    split_ifs
    · rfl
    · cases family P (s.stmBuf.get (t + 1)) <;> rfl

theorem probeType_ignoresInbox : UpdateIgnoresInbox probeType := by
  intro rest s
  simp only [probeType]
  cases findCr s.stmBuf <;> rfl

theorem endStm_ignoresInbox (code : Word) : UpdateIgnoresInbox (endStm code) := fun _ _ => rfl

theorem powerOff_ignoresInbox : UpdateIgnoresInbox powerOff := fun _ _ => rfl

theorem finishStm_ignoresInbox (P : Params) (timedOut : Bool) : UpdateIgnoresInbox (finishStm P timedOut) := by
  intro rest s
  simp only [finishStm, powerOff_ignoresInbox rest s]
  split_ifs
  · rfl
  · rfl
  · rw [parse_ignoresInbox, endStm_ignoresInbox]
  · rw [probeType_ignoresInbox, endStm_ignoresInbox]

theorem countRollover_ignoresInbox (P : Params) : UpdateIgnoresInbox (countRollover P) := by
  intro rest s
  simp only [countRollover]
  split_ifs
  · exact finishStm_ignoresInbox P false rest { s with stm := { s.stm with tocnt := s.stm.tocnt + 1 } }
  · exact finishStm_ignoresInbox P true rest { s with stm := { s.stm with tocnt := s.stm.tocnt + 1 } }
  · rfl

theorem stmRollover_ignoresInbox (P : Params) : IgnoresInbox (stmRollover P) := by
  intro rest s
  simp only [stmRollover]
  cases s.stm.sts with
  | armed => exact (countRollover_ignoresInbox P).next rest s
  | idle | exciting | sampling => rfl

theorem stmDelayDone_ignoresInbox : IgnoresInbox stmDelayDone := by
  intro rest s
  simp only [stmDelayDone]
  cases s.stm.sts <;> rfl

theorem stmRxFall_ignoresInbox (ch : Channel) : IgnoresInbox (stmRxFall ch) := by
  intro rest s
  simp only [stmRxFall]
  cases s.stm.sts with
  | armed => dsimp only; split_ifs <;> rfl
  | idle | exciting | sampling => rfl

theorem storeByte_ignoresInbox (b : Byte) : IgnoresInbox (storeByte b) := by
  intro rest s
  unfold storeByte
  exact writeByte_withInbox (fun _ _ => rfl) rest s

theorem stmBitTick_ignoresInbox : IgnoresInbox stmBitTick := by
  intro rest s
  simp only [stmBitTick]
  cases s.stm.sts with
  | sampling =>
    dsimp only
    split_ifs
    · rfl
    · exact storeByte_ignoresInbox s.stm.shift rest (rearm s)
  | idle | exciting | armed => rfl

/-! ### The commands -/

theorem grabmsg_ignoresInbox (P : Params) : UpdateIgnoresInbox (grabmsg P) := by
  intro rest s
  simp only [grabmsg]
  split_ifs <;> rfl

theorem crcRun_ignoresInbox (P : Params) (mode : CrcMode) (len : Byte) : UpdateIgnoresInbox (crcRun P mode len) := by
  intro rest s
  cases mode <;> rfl

theorem regValue_withInbox (rest : List Input) (s : State) (reg : RegId) :
    regValue (s.withInbox rest) reg = regValue s reg := by
  cases reg <;> rfl

theorem startSendmsg_ignoresInbox (P : Params) (len : Byte) : IgnoresInbox (startSendmsg P len) := fun rest s =>
  sendCurrent_ignoresInbox rest (activate { s with
    cp := { s.cp with op := .sendmsg, len := len.setWidth 7, txi := 0, fail := 0 }
    txBuf := crcSend P s.txBuf len.toNat })

theorem execBody_ignoresInbox (i : Instr) : IgnoresInbox (execBody i) := by
  intro rest s
  cases i with
  | cpSendbyte v =>
    exact (beginTx_ignoresInbox v).next rest (activate { s with cp := { s.cp with op := .sendbyte } })
  | cpRecvbyte => exact beginRx_ignoresInbox.next rest (activate { s with cp := { s.cp with op := .recvbyte } })
  | cpWaitmsg =>
    exact beginRx_ignoresInbox.next rest { activate { s with cp := { s.cp with op := .waitmsg } } with rxIdx := 0 }
  | cpSendmsg len => exact startSendmsg_ignoresInbox params len rest s
  | cpGrabmsg => exact (grabmsg_ignoresInbox params).next rest s
  | crcRun mode len => exact (crcRun_ignoresInbox params mode len).next rest s
  | stmParse =>
    simp only [execBody, parse_ignoresInbox params rest s]
    rfl
  | bufWrite buf idx v => exact writeByte_withInbox (k := fun u => .next (finish 0 u)) (fun _ _ => rfl) rest s
  | bufRead buf idx => exact readByte_withInbox (k := fun s b => .next (finish (zext32 b) s)) (fun _ _ _ => rfl) rest s
  | regRead reg =>
    simp only [execBody, regValue_withInbox]
    rfl
  | cpWaitstart | stmMeasure ch | stmTypeprobe ch | stmChecksum => rfl

theorem exec_ignoresInbox (i : Instr) : IgnoresInbox (exec i) := fun rest s => by
  rw [exec_eq, exec_eq, onCommand_ignoresInbox (execBody_ignoresInbox i)]

/-! ### The inputs -/

theorem onCmd_ignoresInbox (w : Word) : IgnoresInbox (onCmd w) := by
  intro rest s
  cases h : decode w with
  | ok i => rw [onCmd_of_decode_ok h, onCmd_of_decode_ok h, exec_ignoresInbox]
  | error e =>
    rw [onCmd_of_decode_error h, onCmd_of_decode_error h]
    exact onCommand_ignoresInbox (fun _ _ => rfl) rest s

theorem onClkRise_ignoresInbox : IgnoresInbox onClkRise := by
  intro rest s
  simp only [onClkRise]
  split_ifs
  · rfl
  · exact onEvent_ignoresInbox cpClkRise_ignoresInbox rest { s with lines := { s.lines with clkLvl := true } }

theorem onClkFall_ignoresInbox : IgnoresInbox onClkFall := by
  intro rest s
  simp only [onClkFall]
  split_ifs
  · exact onEvent_ignoresInbox cpClkFall_ignoresInbox rest { s with lines := { s.lines with clkLvl := false } }
  · rfl

theorem onDatSet_ignoresInbox (v : Bool) : IgnoresInbox (onDatSet v) := by
  intro rest s
  simp only [onDatSet]
  split_ifs
  · rfl
  · rfl
  · exact onEvent_ignoresInbox cpDatFall_ignoresInbox rest { s with lines := { s.lines with datPeer := v } }

theorem onRxSet_ignoresInbox (ch : Channel) (v : Bool) : IgnoresInbox (onRxSet ch v) := by
  intro rest s
  simp only [onRxSet]
  split_ifs
  · rfl
  · rfl
  · exact onEvent_ignoresInbox (stmRxFall_ignoresInbox ch) rest
      { s with lines := { s.lines with rxLvl := s.lines.rxLvl.set ch v } }

theorem takeInput_ignoresInbox (i : Input) : IgnoresInbox (takeInput i) := by
  cases i with
  | cmd w => exact onCmd_ignoresInbox w
  | clkRise => exact onClkRise_ignoresInbox
  | clkFall => exact onClkFall_ignoresInbox
  | datSet v => exact onDatSet_ignoresInbox v
  | wake => exact onEvent_ignoresInbox cpWake_ignoresInbox
  | rxSet ch v => exact onRxSet_ignoresInbox ch v
  | delayDone => exact onEvent_ignoresInbox stmDelayDone_ignoresInbox
  | bitTick => exact onEvent_ignoresInbox stmBitTick_ignoresInbox
  | rollover => exact onEvent_ignoresInbox (stmRollover_ignoresInbox params)
  | reset => exact fun _ _ => rfl

/-- Settles O10: no operation an input can reach reads or writes the inbox. -/
theorem futureInputsNotRead : Obligations.FutureInputsNotRead := by
  intro i s rest
  refine (takeInput_ignoresInbox i rest s).trans ?_
  cases takeInput i s <;> rfl

end Sys2Proof.Machine
end

section
/-! PROOFS. `RESULT` is written where a command ends, and nowhere else (00_scope R13, 10_state R33, 60_exceptions R312). -/

namespace Sys2Proof.Machine

/-- An operation on `s` that answers `r` writes `RESULT` only with the end of the command, and then leaves `FAULT` as it was. -/
def ResultAtEnd (s : State) (r : Result) : Prop :=
  ∀ t, r = .next t → t.result ≠ s.result → t.status.active = false ∧ t.status.fault = s.status.fault

/-- The same of a whole step, which writes `RESULT` only with no fault before or after it. -/
def ResultAtLiveEnd (s : State) (r : Result) : Prop :=
  ∀ t, r = .next t → t.result ≠ s.result →
    t.status.active = false ∧ t.status.fault = false ∧ s.status.fault = false

theorem ResultAtEnd.of_kept {s t : State} (h : t.result = s.result) : ResultAtEnd s (.next t) := by
  rintro _ ⟨⟩ hne
  exact absurd h hne

theorem ResultAtEnd.of_ended {s t : State} (ha : t.status.active = false) (hf : t.status.fault = s.status.fault) :
    ResultAtEnd s (.next t) := by
  rintro _ ⟨⟩ -
  exact ⟨ha, hf⟩

theorem ResultAtEnd.of_fault {s : State} {r : Fault} : ResultAtEnd s (.fault r) := by
  rintro _ ⟨⟩

theorem ResultAtLiveEnd.of_kept {s t : State} (h : t.result = s.result) : ResultAtLiveEnd s (.next t) := by
  rintro _ ⟨⟩ hne
  exact absurd h hne

theorem readByte_resultAtEnd {b : BufId} {i : Nat} {s u : State} {k : Byte → Result} (h : ∀ v, ResultAtEnd s (k v)) :
    ResultAtEnd s (readByte b i u k) :=
  fun t ht => h _ t (readByte_next ht).2

theorem writeByte_resultAtEnd {b : BufId} {i : Nat} {v : Byte} {s u : State} {k : State → Result}
    (h : ∀ m, ResultAtEnd s (k (u.setBuf b m))) : ResultAtEnd s (writeByte b i v u k) :=
  fun t ht => h _ t (writeByte_next ht).2

/-- An event is dropped in a fault, so what its engine writes is written without one (R307, R313). -/
theorem onEvent_resultAtLiveEnd {act : State → Result} (h : ∀ s, ResultAtEnd s (act s)) (s : State) :
    ResultAtLiveEnd s (onEvent act s) := by
  intro t ht hne
  obtain ⟨-, rfl⟩ | ⟨hf, hact⟩ := onEvent_cases ht
  · exact absurd rfl hne
  · obtain ⟨ha, hft⟩ := h s t hact hne
    exact ⟨ha, hft.trans hf, hf⟩

/-- A command word that is ignored or rejected writes no `RESULT`; one that is accepted leaves it to the body (R300). -/
theorem onCommand_resultAtLiveEnd {legal : Bool} {opc : Byte} {body : State → Result}
    (h : ∀ s, ResultAtEnd s (body s)) (s : State) : ResultAtLiveEnd s (onCommand legal opc body s) := by
  intro t ht hne
  obtain ⟨-, rfl⟩ | ⟨-, -, rfl⟩ | ⟨-, -, rfl⟩ | ⟨⟨hf, -⟩, -, hbody⟩ := onCommand_cases ht
  · exact absurd rfl hne
  · exact absurd rfl hne
  · exact absurd rfl hne
  · obtain ⟨ha, hft⟩ := h (accept opc s) t hbody hne
    exact ⟨ha, hft.trans hf, hf⟩

/-! ### The CP engine -/

@[simp] theorem startCycle1_result (s : State) : (startCycle1 s).result = s.result := by
  unfold startCycle1
  cases s.cp.dir <;> rfl

@[simp] theorem beginTx_result (v : Byte) (s : State) : (beginTx v s).result = s.result := by
  rw [beginTx_eq]

@[simp] theorem beginRx_result (s : State) : (beginRx s).result = s.result := by
  rw [beginRx_eq]

@[simp] theorem xferRise_result (s : State) : (xferRise s).result = s.result := by
  unfold xferRise
  cases s.cp.dir with
  | tx => dsimp only [txRise]; split_ifs <;> rfl
  | rx => dsimp only [rxRise]; split_ifs <;> rfl

theorem sendCurrent_resultAtEnd (s : State) : ResultAtEnd s (sendCurrent s) :=
  readByte_resultAtEnd fun v => .of_kept (beginTx_result v s)

theorem sendmsgDone_resultAtEnd (s : State) : ResultAtEnd s (sendmsgDone s) := by
  simp only [sendmsgDone]
  split_ifs
  · exact .of_ended rfl rfl
  · exact sendCurrent_resultAtEnd { s with cp := { s.cp with fail := s.cp.fail + 1 } }
  · exact .of_ended rfl rfl
  · exact sendCurrent_resultAtEnd { s with cp := { s.cp with txi := s.cp.txi + 1 } }

theorem byteDoneTx_resultAtEnd (s : State) : ResultAtEnd s (byteDoneTx s) := by
  unfold byteDoneTx
  cases s.cp.op with
  | sendbyte => exact .of_ended rfl rfl
  | sendmsg => exact sendmsgDone_resultAtEnd s
  | none | waitstart | recvbyte | waitmsg => exact .of_fault

theorem waitmsgDone_resultAtEnd (s : State) : ResultAtEnd s (waitmsgDone s) := by
  refine readByte_resultAtEnd fun len => ?_
  split_ifs
  · exact .of_ended rfl rfl
  · exact .of_ended rfl rfl
  · exact .of_kept (beginRx_result s)

theorem byteDoneRx_resultAtEnd (s : State) : ResultAtEnd s (byteDoneRx s) := by
  unfold byteDoneRx
  cases s.cp.op with
  | recvbyte => exact .of_ended rfl rfl
  | waitmsg => exact waitmsgDone_resultAtEnd s
  | none | waitstart | sendbyte | sendmsg => exact .of_fault

/-- An overrun writes no `RESULT` (R145, R312); otherwise the rest of the step decides. -/
theorem appendByte_resultAtEnd {b : Byte} {k : State → Result} (h : ∀ s, ResultAtEnd s (k s)) (s : State) :
    ResultAtEnd s (appendByte b s k) := by
  intro t ht hne
  obtain ⟨-, rfl⟩ | ⟨-, hk⟩ := appendByte_cases ht
  · exact absurd rfl hne
  · exact h { s with rxBuf := s.rxBuf.set s.rxIdx.toNat b, rxIdx := s.rxIdx + 1 } t hk hne

theorem txFall_resultAtEnd (s : State) : ResultAtEnd s (txFall s) := by
  simp only [txFall]
  split_ifs
  · exact .of_kept rfl
  · exact .of_kept rfl
  · exact .of_kept rfl
  · exact byteDoneTx_resultAtEnd s
  · exact .of_kept rfl

theorem rxFall_resultAtEnd (s : State) : ResultAtEnd s (rxFall s) := by
  unfold rxFall
  split_ifs
  · exact .of_kept rfl
  · exact appendByte_resultAtEnd byteDoneRx_resultAtEnd { s with lines := { s.lines with cpOe := false } }
  · exact .of_kept rfl

theorem cpClkRise_resultAtEnd (s : State) : ResultAtEnd s (cpClkRise s) := by
  unfold cpClkRise
  cases s.cp.cps with
  | xfer => exact .of_kept (xferRise_result s)
  | idle | ws1 | ws2 | sync => exact .of_kept rfl

theorem xferFall_resultAtEnd (s : State) : ResultAtEnd s (xferFall s) := by
  unfold xferFall
  cases s.cp.dir with
  | tx => exact txFall_resultAtEnd s
  | rx => exact rxFall_resultAtEnd s

theorem cpClkFall_resultAtEnd (s : State) : ResultAtEnd s (cpClkFall s) := by
  unfold cpClkFall
  cases s.cp.cps with
  | ws2 => exact .of_ended rfl rfl
  | sync => exact .of_kept (startCycle1_result s)
  | xfer => exact xferFall_resultAtEnd s
  | idle | ws1 => exact .of_kept rfl

theorem cpDatFall_resultAtEnd (s : State) : ResultAtEnd s (cpDatFall s) := by
  unfold cpDatFall
  cases s.cp.cps with
  | ws1 => dsimp only; split_ifs <;> exact .of_kept rfl
  | idle | ws2 | sync | xfer => exact .of_kept rfl

theorem cpWake_resultAtEnd (s : State) : ResultAtEnd s (cpWake s) := by
  unfold cpWake
  cases s.cp.cps with
  | ws1 => exact .of_ended rfl rfl
  | idle | ws2 | sync | xfer => exact .of_kept rfl

/-! ### The STM engine -/

theorem finishStm_resultAtEnd (P : Params) (timedOut : Bool) (s : State) :
    ResultAtEnd s (.next (finishStm P timedOut s)) := by
  rw [finishStm_eq]
  exact .of_ended rfl rfl

theorem countRollover_resultAtEnd (P : Params) (s : State) : ResultAtEnd s (.next (countRollover P s)) := by
  simp only [countRollover]
  split_ifs
  · exact finishStm_resultAtEnd P false { s with stm := { s.stm with tocnt := s.stm.tocnt + 1 } }
  · exact finishStm_resultAtEnd P true { s with stm := { s.stm with tocnt := s.stm.tocnt + 1 } }
  · exact .of_kept rfl

theorem stmRollover_resultAtEnd (P : Params) (s : State) : ResultAtEnd s (stmRollover P s) := by
  unfold stmRollover
  cases s.stm.sts with
  | armed => exact countRollover_resultAtEnd P s
  | idle | exciting | sampling => exact .of_kept rfl

theorem stmDelayDone_resultAtEnd (s : State) : ResultAtEnd s (stmDelayDone s) := by
  unfold stmDelayDone
  cases s.stm.sts <;> exact .of_kept rfl

theorem stmRxFall_resultAtEnd (ch : Channel) (s : State) : ResultAtEnd s (stmRxFall ch s) := by
  unfold stmRxFall
  cases s.stm.sts with
  | armed => dsimp only; split_ifs <;> exact .of_kept rfl
  | idle | exciting | sampling => exact .of_kept rfl

theorem stmBitTick_resultAtEnd (s : State) : ResultAtEnd s (stmBitTick s) := by
  unfold stmBitTick
  cases s.stm.sts with
  | sampling =>
    dsimp only
    split_ifs
    · exact .of_kept rfl
    · exact writeByte_resultAtEnd fun m => .of_kept rfl
  | idle | exciting | armed => exact .of_kept rfl

/-! ### The commands and the inputs -/

theorem grabmsg_resultAtEnd (P : Params) (s : State) : ResultAtEnd s (.next (grabmsg P s)) := by
  simp only [grabmsg]
  split_ifs <;> exact .of_ended rfl rfl

/-- An accepted command leaves `RESULT` as it was, to be written by an event, or ends in the same step (R301). -/
theorem execBody_resultAtEnd (i : Instr) (s : State) : ResultAtEnd s (execBody i s) := by
  cases i with
  | cpWaitstart | stmMeasure | stmTypeprobe => exact .of_kept rfl
  | cpSendbyte v => exact .of_kept (beginTx_result v _)
  | cpRecvbyte | cpWaitmsg => exact .of_kept (beginRx_result _)
  | cpSendmsg len =>
    exact sendCurrent_resultAtEnd (activate { s with
      cp := { s.cp with op := .sendmsg, len := len.setWidth 7, txi := 0, fail := 0 }
      txBuf := crcSend params s.txBuf len.toNat })
  | cpGrabmsg => exact grabmsg_resultAtEnd params s
  | crcRun mode len => cases mode <;> exact .of_ended rfl rfl
  | stmChecksum | regRead => exact .of_ended rfl rfl
  | stmParse =>
    rw [execBody, parse_eq]
    exact .of_ended rfl rfl
  | bufWrite buf idx v =>
    rw [execBody]
    exact writeByte_resultAtEnd fun m => .of_ended rfl (by rw [finish_status, setBuf_status])
  | bufRead buf idx =>
    rw [execBody]
    exact readByte_resultAtEnd fun v => .of_ended rfl rfl

theorem onCmd_resultAtLiveEnd (w : Word) (s : State) : ResultAtLiveEnd s (onCmd w s) := by
  cases h : decode w with
  | ok i =>
    rw [onCmd_of_decode_ok h, exec_eq]
    exact onCommand_resultAtLiveEnd (execBody_resultAtEnd i) s
  | error e =>
    rw [onCmd_of_decode_error h]
    exact onCommand_resultAtLiveEnd (fun _ => .of_kept rfl) s

theorem onClkRise_resultAtLiveEnd (s : State) : ResultAtLiveEnd s (onClkRise s) := by
  unfold onClkRise
  split_ifs
  · exact .of_kept rfl
  · exact onEvent_resultAtLiveEnd cpClkRise_resultAtEnd { s with lines := { s.lines with clkLvl := true } }

theorem onClkFall_resultAtLiveEnd (s : State) : ResultAtLiveEnd s (onClkFall s) := by
  unfold onClkFall
  split_ifs
  · exact onEvent_resultAtLiveEnd cpClkFall_resultAtEnd { s with lines := { s.lines with clkLvl := false } }
  · exact .of_kept rfl

theorem onDatSet_resultAtLiveEnd (v : Bool) (s : State) : ResultAtLiveEnd s (onDatSet v s) := by
  simp only [onDatSet]
  split_ifs
  · exact .of_kept rfl
  · exact .of_kept rfl
  · exact onEvent_resultAtLiveEnd cpDatFall_resultAtEnd { s with lines := { s.lines with datPeer := v } }

theorem onRxSet_resultAtLiveEnd (ch : Channel) (v : Bool) (s : State) : ResultAtLiveEnd s (onRxSet ch v s) := by
  simp only [onRxSet]
  split_ifs
  · exact .of_kept rfl
  · exact .of_kept rfl
  · exact onEvent_resultAtLiveEnd (stmRxFall_resultAtEnd ch)
      { s with lines := { s.lines with rxLvl := s.lines.rxLvl.set ch v } }

/-- Settles O55, input by input: `RESULT` is written by `finish` alone, and no operation runs in a fault but `Reset`. -/
theorem resultWrittenAtEnd : Obligations.ResultWrittenAtEnd := by
  intro i s t hi
  have hend : ResultAtLiveEnd s (takeInput i s) := by
    cases i with
    | cmd w => exact onCmd_resultAtLiveEnd w s
    | clkRise => exact onClkRise_resultAtLiveEnd s
    | clkFall => exact onClkFall_resultAtLiveEnd s
    | datSet v => exact onDatSet_resultAtLiveEnd v s
    | wake => exact onEvent_resultAtLiveEnd cpWake_resultAtEnd s
    | rxSet ch v => exact onRxSet_resultAtLiveEnd ch v s
    | delayDone => exact onEvent_resultAtLiveEnd stmDelayDone_resultAtEnd s
    | bitTick => exact onEvent_resultAtLiveEnd stmBitTick_resultAtEnd s
    | rollover => exact onEvent_resultAtLiveEnd (stmRollover_resultAtEnd params) s
    | reset => exact absurd rfl hi
  exact hend t

end Sys2Proof.Machine
end

section
/-! PROOFS. The host's port and the states with no command in flight (10_state R32–R34, R49, R56, R68). -/

namespace Sys2Proof.Machine

/-- A joined bit string as a number: the left part stands above the right part's bits. -/
theorem toNat_append_eq_add {m n : Nat} (x : BitVec m) (y : BitVec n) : (x ++ y).toNat = x.toNat * 2 ^ n + y.toNat := by
  rw [BitVec.toNat_append, ← Nat.shiftLeft_add_eq_or_of_lt y.isLt, Nat.shiftLeft_eq]

theorem Status.causeField_toNat (st : Status) :
    st.causeField.toNat = if st.faultCause = some .rxOverrun then 1 else 0 := by
  unfold Status.causeField
  cases st.faultCause with
  | none => rfl
  | some c => cases c; rfl

/-- Settles O29: each field of `STATUS` counts with the weight of its place in the joined word. -/
theorem hostPortReads : Obligations.HostPortReads := by
  intro s
  refine ⟨rfl, rfl, ?_⟩
  simp only [State.hostRead, Status.toWord, toNat_append_eq_add, BitVec.toNat_ofBool, Status.causeField_toNat,
    BitVec.ofNat_eq_ofNat, BitVec.toNat_ofNat, Nat.zero_mod]
  omega

/-- An idle engine has no byte transfer in progress (R49). -/
theorem CpEngine.transferring_of_idle {e : CpEngine} (h : e.cps = .idle) : e.transferring = false := by
  rw [CpEngine.transferring, h]

theorem CpEngine.txBusy_of_idle {e : CpEngine} (h : e.cps = .idle) : e.txBusy = false := by
  rw [CpEngine.txBusy, CpEngine.transferring_of_idle h, Bool.false_and]

theorem CpEngine.rxBusy_of_idle {e : CpEngine} (h : e.cps = .idle) : e.rxBusy = false := by
  rw [CpEngine.rxBusy, CpEngine.transferring_of_idle h, Bool.false_and]

/-- An idle STM engine leaves the timer without a role (R56). -/
theorem StmEngine.timerRole_of_idle {e : StmEngine} (h : e.sts = .idle) : e.timerRole = none := by
  rw [StmEngine.timerRole, h]

/-- The line is driven in a byte transfer only (R110). -/
theorem State.DriveOk.cpOe_of_idle {s : State} (h : s.DriveOk) (hc : s.cp.cps = .idle) : s.lines.cpOe = false := by
  rw [Bool.eq_false_iff]
  intro hoe
  obtain ⟨hxfer, -⟩ := h.mp hoe
  cases hc.symm.trans hxfer

/-- An idle STM engine has no edge interrupt enabled and no channel powered (R211, R240). -/
theorem State.StmOk.released_of_idle {s : State} (h : s.StmOk) (hs : s.stm.sts = .idle) :
    s.stm.edgeEn = false ∧ s.lines.exc = PerChannel.all false := by
  obtain ⟨-, hedge, -, hexc⟩ := h
  refine ⟨?_, by rw [hexc, if_pos hs]⟩
  rw [Bool.eq_false_iff, ne_eq, hedge, hs]
  decide

/-- Settles O56: with `ACTIVE` 0 both engines are idle, and each part of the invariant then releases its own drives. -/
theorem idleLinesReleased : Obligations.IdleLinesReleased := by
  rintro s ⟨-, -, -, ⟨hactive, -⟩, -, hdrive, hstm⟩ ha
  obtain ⟨hcp, hsts⟩ := hactive.mp ha
  obtain ⟨hedge, hexc⟩ := hstm.released_of_idle hsts
  exact ⟨hdrive.cpOe_of_idle hcp, hexc, hedge, StmEngine.timerRole_of_idle hsts, CpEngine.txBusy_of_idle hcp,
    CpEngine.rxBusy_of_idle hcp⟩

theorem reset_buffersOk : State.reset.BuffersOk :=
  ⟨Memory.nil_wf _, Memory.nil_wf _, Memory.nil_wf _, Memory.nil_wf _⟩

/-- Settles O58: every part of the invariant but the buffers' is a small closed fact about the reset values. -/
theorem resetMeetsInvariant : Obligations.ResetMeetsInvariant := by
  refine ⟨reset_buffersOk, ?counters, ?status, ?engines, ?cp, ?drive, ?stm⟩
  case counters => decide
  case status => decide
  case engines => decide
  case cp => decide
  case drive => decide
  case stm => decide

end Sys2Proof.Machine
end

section
/-! PROOFS. What an input can write of the line levels and of `TEMP`, `SOIL`, the registry and `OUT_BUF`
(10_state R41, R52, R60, R61). -/

namespace Sys2Proof.Machine

/-! ### A word that decodes is the command's word -/

/-- A decoding part with nothing to check but unused fields (R91). -/
theorem ifUnused_command_ok {unused : List Byte} {i j : Instr} (h : ifUnused unused (.ok j) = .ok i) :
    (∀ x ∈ unused, x = 0) ∧ j = i := by
  obtain ⟨hu, hi⟩ := ifUnused_ok h
  exact ⟨hu, Except.ok.inj hi⟩

/-- The fields of a word that decodes are its command's (R91–R93). The cases are the rows of R92's table, in its
order, by what the decoder checks: unused fields, the range of an operand, its code. -/
theorem fields_of_decode_ok {w : Word} {i : Instr} (h : decode w = .ok i) :
    fieldOpc w = i.opcode ∧ fieldA w = i.operands.1 ∧ fieldB w = i.operands.2.1 ∧ fieldC w = i.operands.2.2 := by
  unfold decode at h
  dsimp only at h
  split at h
  case h_1 hopc | h_2 hopc | h_3 hopc | h_4 hopc | h_6 hopc | h_10 hopc | h_11 hopc =>
    obtain ⟨hu, rfl⟩ := ifUnused_command_ok h
    simp_all [Instr.opcode, Instr.operands]
  case h_5 hopc =>
    obtain ⟨hu, hi⟩ := ifUnused_ok h
    obtain ⟨-, rfl⟩ := ifLegal_ok hi
    simp_all [Instr.opcode, Instr.operands]
  case h_7 hopc =>
    obtain ⟨hu, hi⟩ := ifUnused_ok h
    obtain ⟨mode, hmode, hi⟩ := bind_ok hi
    obtain ⟨-, rfl⟩ := ifLegal_ok hi
    simp_all [Instr.opcode, Instr.operands, modeOf_ok hmode]
  case h_8 hopc | h_9 hopc =>
    obtain ⟨hu, hi⟩ := ifUnused_ok h
    obtain ⟨ch, hch, ⟨⟩⟩ := bind_ok hi
    simp_all [Instr.opcode, Instr.operands, channelOf_ok hch]
  case h_12 hopc =>
    obtain ⟨buf, hbuf, hi⟩ := bind_ok h
    obtain ⟨-, rfl⟩ := ifLegal_ok hi
    simp_all [Instr.opcode, Instr.operands, bufOf_ok hbuf]
  case h_13 hopc =>
    obtain ⟨hu, hi⟩ := ifUnused_ok h
    obtain ⟨buf, hbuf, hi⟩ := bind_ok hi
    obtain ⟨-, rfl⟩ := ifLegal_ok hi
    simp_all [Instr.opcode, Instr.operands, bufOf_ok hbuf]
  case h_14 hopc =>
    obtain ⟨hu, hi⟩ := ifUnused_ok h
    obtain ⟨reg, hreg, ⟨⟩⟩ := bind_ok hi
    simp_all [Instr.opcode, Instr.operands, regOf_ok hreg]
  case h_15 => cases h

theorem encode_of_decode_ok {w : Word} {i : Instr} (h : decode w = .ok i) : encode i = w := by
  obtain ⟨ho, ha, hb, hc⟩ := fields_of_decode_ok h
  rw [encode, ← ho, ← ha, ← hb, ← hc, wordOf_fields]

/-! ### What an operation leaves alone -/

/-- The levels the environment puts on the lines (R40). -/
structure Levels where
  clk : Bool
  dat : Bool
  rx : PerChannel Bool

/-- The registers and the buffer that hold what the block delivers (R52, R60, R61). -/
structure Outputs where
  temp : Word
  soil : Word
  stype : PerChannel Byte
  outBuf : Memory

def State.levels (s : State) : Levels := ⟨s.lines.clkLvl, s.lines.datPeer, s.lines.rxLvl⟩

def State.outputs (s : State) : Outputs := ⟨s.temp, s.soil, s.stype, s.outBuf⟩

/-- `t` has the line levels and the outputs of `s`. -/
def Kept (s t : State) : Prop := t.levels = s.levels ∧ t.outputs = s.outputs

/-- An operation that answers `r` leaves the line levels and the outputs as they are in `s`. -/
def Keeps (s : State) (r : Result) : Prop := ∀ t, r = .next t → Kept s t

theorem Kept.keeps {s t : State} (h : Kept s t) : Keeps s (.next t) := by
  rintro _ ⟨⟩
  exact h

theorem Keeps.of_fault {s : State} {r : Fault} : Keeps s (.fault r) := by
  rintro _ ⟨⟩

theorem readByte_keeps {b : BufId} {i : Nat} {s u : State} {k : Byte → Result} (h : ∀ v, Keeps s (k v)) :
    Keeps s (readByte b i u k) :=
  fun t ht => h _ t (readByte_next ht).2

theorem onEvent_keeps {act : State → Result} {s : State} (h : Keeps s (act s)) : Keeps s (onEvent act s) := by
  intro t ht
  obtain ⟨-, rfl⟩ | ⟨-, hact⟩ := onEvent_cases ht
  · exact ⟨rfl, rfl⟩
  · exact h t hact

/-! ### The CP engine -/

theorem startCycle1_kept (s : State) : Kept s (startCycle1 s) := by
  unfold startCycle1
  cases s.cp.dir <;> exact ⟨rfl, rfl⟩

theorem beginTx_kept (v : Byte) (s : State) : Kept s (beginTx v s) := by
  rw [beginTx_eq]
  cases h : s.lines.clkLvl <;> exact ⟨by simp [State.levels, h], rfl⟩

theorem beginRx_kept (s : State) : Kept s (beginRx s) := by
  rw [beginRx_eq]
  cases h : s.lines.clkLvl <;> exact ⟨by simp [State.levels, h], rfl⟩

theorem txRise_kept (s : State) : Kept s (txRise s) := by
  unfold txRise
  split_ifs <;> exact ⟨rfl, rfl⟩

theorem rxRise_kept (s : State) : Kept s (rxRise s) := by
  dsimp only [rxRise]
  split_ifs <;> exact ⟨rfl, rfl⟩

theorem cpClkRise_keeps (s : State) : Keeps s (cpClkRise s) := by
  unfold cpClkRise
  cases s.cp.cps with
  | xfer =>
    dsimp only [xferRise]
    cases s.cp.dir with
    | tx => exact (txRise_kept s).keeps
    | rx => exact (rxRise_kept s).keeps
  | idle | ws1 | ws2 | sync => exact Kept.keeps ⟨rfl, rfl⟩

theorem sendCurrent_keeps (s : State) : Keeps s (sendCurrent s) :=
  readByte_keeps fun v => (beginTx_kept v s).keeps

theorem sendmsgDone_keeps (s : State) : Keeps s (sendmsgDone s) := by
  simp only [sendmsgDone]
  split_ifs
  · exact Kept.keeps ⟨rfl, rfl⟩
  · exact sendCurrent_keeps { s with cp := { s.cp with fail := s.cp.fail + 1 } }
  · exact Kept.keeps ⟨rfl, rfl⟩
  · exact sendCurrent_keeps { s with cp := { s.cp with txi := s.cp.txi + 1 } }

theorem byteDoneTx_keeps (s : State) : Keeps s (byteDoneTx s) := by
  unfold byteDoneTx
  cases s.cp.op with
  | sendbyte => exact Kept.keeps ⟨rfl, rfl⟩
  | sendmsg => exact sendmsgDone_keeps s
  | none | waitstart | recvbyte | waitmsg => exact .of_fault

theorem waitmsgDone_keeps (s : State) : Keeps s (waitmsgDone s) := by
  refine readByte_keeps fun len => ?_
  split_ifs
  · exact Kept.keeps ⟨rfl, rfl⟩
  · exact Kept.keeps ⟨rfl, rfl⟩
  · exact (beginRx_kept s).keeps

theorem byteDoneRx_keeps (s : State) : Keeps s (byteDoneRx s) := by
  unfold byteDoneRx
  cases s.cp.op with
  | recvbyte => exact Kept.keeps ⟨rfl, rfl⟩
  | waitmsg => exact waitmsgDone_keeps s
  | none | waitstart | sendbyte | sendmsg => exact .of_fault

theorem appendByte_byteDoneRx_keeps (b : Byte) (s : State) : Keeps s (appendByte b s byteDoneRx) := by
  intro t ht
  obtain ⟨-, rfl⟩ | ⟨-, ht⟩ := appendByte_cases ht
  · exact ⟨rfl, rfl⟩
  · have hdone := byteDoneRx_keeps { s with rxBuf := s.rxBuf.set s.rxIdx.toNat b, rxIdx := s.rxIdx + 1 }
    exact hdone t ht

theorem txFall_keeps (s : State) : Keeps s (txFall s) := by
  simp only [txFall]
  split_ifs
  · exact Kept.keeps ⟨rfl, rfl⟩
  · exact Kept.keeps ⟨rfl, rfl⟩
  · exact Kept.keeps ⟨rfl, rfl⟩
  · exact byteDoneTx_keeps s
  · exact Kept.keeps ⟨rfl, rfl⟩

theorem rxFall_keeps (s : State) : Keeps s (rxFall s) := by
  unfold rxFall
  split_ifs
  · exact Kept.keeps ⟨rfl, rfl⟩
  · exact appendByte_byteDoneRx_keeps s.cp.shift { s with lines := { s.lines with cpOe := false } }
  · exact Kept.keeps ⟨rfl, rfl⟩

theorem cpClkFall_keeps (s : State) : Keeps s (cpClkFall s) := by
  unfold cpClkFall
  cases s.cp.cps with
  | sync => exact (startCycle1_kept s).keeps
  | xfer =>
    dsimp only [xferFall]
    cases s.cp.dir with
    | tx => exact txFall_keeps s
    | rx => exact rxFall_keeps s
  | idle | ws1 | ws2 => exact Kept.keeps ⟨rfl, rfl⟩

theorem cpDatFall_keeps (s : State) : Keeps s (cpDatFall s) := by
  unfold cpDatFall
  cases s.cp.cps with
  | ws1 => dsimp only; split_ifs <;> exact Kept.keeps ⟨rfl, rfl⟩
  | idle | ws2 | sync | xfer => exact Kept.keeps ⟨rfl, rfl⟩

theorem cpWake_keeps (s : State) : Keeps s (cpWake s) := by
  unfold cpWake
  cases s.cp.cps <;> exact Kept.keeps ⟨rfl, rfl⟩

/-! ### The STM engine -/

theorem stmDelayDone_keeps (s : State) : Keeps s (stmDelayDone s) := by
  unfold stmDelayDone
  cases s.stm.sts <;> exact Kept.keeps ⟨rfl, rfl⟩

theorem stmRxFall_keeps (ch : Channel) (s : State) : Keeps s (stmRxFall ch s) := by
  unfold stmRxFall
  cases s.stm.sts with
  | armed => dsimp only; split_ifs <;> exact Kept.keeps ⟨rfl, rfl⟩
  | idle | exciting | sampling => exact Kept.keeps ⟨rfl, rfl⟩

theorem storeByte_keeps (b : Byte) (s : State) : Keeps s (storeByte b s) := by
  intro t ht
  obtain ⟨-, rfl⟩ := storeByte_cases ht
  exact ⟨rfl, rfl⟩

theorem stmBitTick_keeps (s : State) : Keeps s (stmBitTick s) := by
  unfold stmBitTick
  cases s.stm.sts with
  | sampling =>
    dsimp only
    split_ifs
    · exact Kept.keeps ⟨rfl, rfl⟩
    · exact storeByte_keeps s.stm.shift (rearm s)
  | idle | exciting | armed => exact Kept.keeps ⟨rfl, rfl⟩

/-! ### The rollover that ends an STM command -/

/-- A measurement's readings are written with `RESULT` 0 or not at all (R228). -/
theorem finishStm_readings (P : Params) (timedOut : Bool) (s : State) :
    ((finishStm P timedOut s).temp = s.temp ∧ (finishStm P timedOut s).soil = s.soil) ∨
      (s.stm.op = .measure ∧ (finishStm P timedOut s).result = 0) := by
  rw [finishStm_eq]
  by_cases h : timedOut = false ∧ checksumPasses s.stmBuf = true ∧ s.stm.op = .measure
  · obtain ⟨hto, hpass, hop⟩ := h
    exact .inr ⟨hop, by simp [hto, hpass]⟩
  · exact .inl ⟨if_neg h, if_neg h⟩

/-- A probe's registry entry is written with `RESULT` 0 or not at all (R228, R236). -/
theorem finishStm_registry (P : Params) (timedOut : Bool) (s : State) :
    (finishStm P timedOut s).stype = s.stype ∨ (s.stm.op ≠ .measure ∧ (finishStm P timedOut s).result = 0) := by
  rw [finishStm_eq]
  by_cases h : timedOut = false ∧ checksumPasses s.stmBuf = true ∧ s.stm.op ≠ .measure
  · obtain ⟨hto, hpass, hop⟩ := h
    exact .inr ⟨hop, by simp [hto, hpass]⟩
  · exact .inl (if_neg h)

theorem finishStm_levels (P : Params) (timedOut : Bool) (s : State) : (finishStm P timedOut s).levels = s.levels := by
  rw [finishStm_eq]; rfl

theorem finishStm_outBuf (P : Params) (timedOut : Bool) (s : State) : (finishStm P timedOut s).outBuf = s.outBuf := by
  rw [finishStm_eq]

/-- What a rollover can write. -/
structure RolloverWrites (s t : State) : Prop where
  levels : t.levels = s.levels
  readings : (t.temp = s.temp ∧ t.soil = s.soil) ∨ (s.stm.op = .measure ∧ t.result = 0)
  registry : t.stype = s.stype ∨ (s.stm.sts = .armed ∧ s.stm.op ≠ .measure ∧ t.result = 0)
  outBuf : t.outBuf = s.outBuf

/-- The end of an STM command, on the state with the rollover counted (R219, R228). -/
theorem finishStm_writes (P : Params) (timedOut : Bool) (n : BitVec 4) {s : State} (h : s.stm.sts = .armed) :
    RolloverWrites s (finishStm P timedOut { s with stm := { s.stm with tocnt := n } }) where
  levels := finishStm_levels P timedOut { s with stm := { s.stm with tocnt := n } }
  readings := finishStm_readings P timedOut { s with stm := { s.stm with tocnt := n } }
  registry := (finishStm_registry P timedOut { s with stm := { s.stm with tocnt := n } }).imp_right fun h' => ⟨h, h'⟩
  outBuf := finishStm_outBuf P timedOut { s with stm := { s.stm with tocnt := n } }

theorem Kept.rolloverWrites {s t : State} (h : Kept s t) : RolloverWrites s t := by
  obtain ⟨hl, ho⟩ := h
  obtain ⟨ht, hs, hr, hb⟩ := Outputs.mk.inj ho
  exact ⟨hl, .inl ⟨ht, hs⟩, .inl hr, hb⟩

theorem countRollover_writes (P : Params) {s : State} (h : s.stm.sts = .armed) : RolloverWrites s (countRollover P s) := by
  simp only [countRollover]
  split_ifs
  · exact finishStm_writes P false (s.stm.tocnt + 1) h
  · exact finishStm_writes P true (s.stm.tocnt + 1) h
  · exact Kept.rolloverWrites ⟨rfl, rfl⟩

theorem onRollover_writes {P : Params} {s t : State} (h : onEvent (stmRollover P) s = .next t) : RolloverWrites s t := by
  obtain ⟨-, rfl⟩ | ⟨-, h⟩ := onEvent_cases h
  · exact Kept.rolloverWrites ⟨rfl, rfl⟩
  · unfold stmRollover at h
    cases hs : s.stm.sts with
    | armed =>
      rw [hs] at h
      cases h
      exact countRollover_writes P hs
    | idle | exciting | sampling =>
      rw [hs] at h
      cases h
      exact Kept.rolloverWrites ⟨rfl, rfl⟩

/-! ### The commands -/

/-- What a command can write. -/
structure CommandWrites (i : Instr) (s t : State) : Prop where
  levels : t.levels = s.levels
  readings : (t.temp = s.temp ∧ t.soil = s.soil) ∨ i = .stmParse
  registry : t.stype = s.stype
  outBuf : t.outBuf = s.outBuf ∨ (i = .cpGrabmsg ∧ t.result = 0) ∨ ∃ idx v, i = .bufWrite .out idx v

theorem Kept.commandWrites {i : Instr} {s t : State} (h : Kept s t) : CommandWrites i s t := by
  obtain ⟨hl, ho⟩ := h
  obtain ⟨ht, hs, hr, hb⟩ := Outputs.mk.inj ho
  exact ⟨hl, .inl ⟨ht, hs⟩, hr, .inl hb⟩

theorem grabmsg_writes (P : Params) (s : State) : CommandWrites .cpGrabmsg s (grabmsg P s) := by
  simp only [grabmsg]
  split_ifs
  case pos | pos | pos | pos | pos => exact Kept.commandWrites ⟨rfl, rfl⟩
  case neg => exact ⟨rfl, .inl ⟨rfl, rfl⟩, rfl, .inr (.inl ⟨rfl, rfl⟩)⟩

theorem parse_writes (P : Params) (s : State) : CommandWrites .stmParse s (finish 0 (parse P s)) := by
  rw [parse_eq]
  exact ⟨rfl, .inr rfl, rfl, .inl rfl⟩

theorem bufWrite_writes (buf : BufId) (idx v : Byte) (s : State) (m : Memory) :
    CommandWrites (.bufWrite buf idx v) s (finish 0 (s.setBuf buf m)) := by
  cases buf with
  | out => exact ⟨rfl, .inl ⟨rfl, rfl⟩, rfl, .inr (.inr ⟨idx, v, rfl⟩)⟩
  | rx | tx | stm => exact Kept.commandWrites ⟨rfl, rfl⟩

theorem startSendmsg_keeps (P : Params) (len : Byte) (s : State) : Keeps s (startSendmsg P len s) :=
  sendCurrent_keeps (activate { s with
    cp := { s.cp with op := .sendmsg, len := len.setWidth 7, txi := 0, fail := 0 }
    txBuf := crcSend P s.txBuf len.toNat })

/-- An accepted command writes the outputs only as CP.GRABMSG, STM.PARSE or BUF.WRITE (R190, R262, R280). -/
theorem execBody_writes {i : Instr} {s t : State} (h : execBody i s = .next t) : CommandWrites i s t := by
  cases i with
  | cpGrabmsg => cases h; exact grabmsg_writes params s
  | stmParse => cases h; exact parse_writes params s
  | bufWrite buf idx v =>
    rw [execBody] at h
    obtain ⟨-, h⟩ := writeByte_next h
    cases h
    exact bufWrite_writes buf idx v s _
  | cpSendbyte v =>
    cases h
    exact Kept.commandWrites (beginTx_kept v (activate { s with cp := { s.cp with op := .sendbyte } }))
  | cpRecvbyte =>
    cases h
    exact Kept.commandWrites (beginRx_kept (activate { s with cp := { s.cp with op := .recvbyte } }))
  | cpWaitmsg =>
    cases h
    exact Kept.commandWrites (beginRx_kept { activate { s with cp := { s.cp with op := .waitmsg } } with rxIdx := 0 })
  | cpSendmsg len => exact (startSendmsg_keeps params len s t h).commandWrites
  | crcRun mode len => cases h; cases mode <;> exact Kept.commandWrites ⟨rfl, rfl⟩
  | bufRead buf idx =>
    rw [execBody] at h
    obtain ⟨-, h⟩ := readByte_next h
    cases h
    exact Kept.commandWrites ⟨rfl, rfl⟩
  | cpWaitstart | stmMeasure | stmTypeprobe | stmChecksum | regRead => cases h; exact Kept.commandWrites ⟨rfl, rfl⟩

/-! ### The inputs -/

/-- What an input other than `Reset` can write (R41, R52, R60, R61). -/
structure InputWrites (i : Input) (s t : State) : Prop where
  levels : t.levels = (bookkept i s).levels
  readings : (t.temp = s.temp ∧ t.soil = s.soil) ∨
    i = .cmd (encode .stmParse) ∨ (i = .rollover ∧ s.stm.op = .measure ∧ t.result = 0)
  registry : t.stype = s.stype ∨ (i = .rollover ∧ s.stm.sts = .armed ∧ s.stm.op ≠ .measure ∧ t.result = 0)
  outBuf : t.outBuf = s.outBuf ∨
    (i = .cmd (encode .cpGrabmsg) ∧ t.result = 0) ∨ ∃ idx v, i = .cmd (encode (.bufWrite .out idx v))

/-- An input whose engine keeps the levels and outputs that its line bookkeeping left. -/
theorem Kept.inputWrites {i : Input} {s t : State} (h : Kept (bookkept i s) t) : InputWrites i s t := by
  obtain ⟨hl, ho⟩ := h
  obtain ⟨ht, hs, hr, hb⟩ := Outputs.mk.inj ho
  exact ⟨hl, .inl ⟨ht, hs⟩, .inl hr, .inl hb⟩

/-- A command word that is ignored or rejected writes `STATUS` alone; one that is accepted is the word of its command. -/
theorem onCmd_writes {w : Word} {s t : State} (h : onCmd w s = .next t) : InputWrites (.cmd w) s t := by
  cases hdec : decode w with
  | error e =>
    rw [onCmd_of_decode_error hdec] at h
    obtain ⟨-, rfl⟩ | ⟨-, -, rfl⟩ | ⟨-, -, rfl⟩ | ⟨-, hl, -⟩ := onCommand_cases h
    · exact Kept.inputWrites ⟨rfl, rfl⟩
    · exact Kept.inputWrites ⟨rfl, rfl⟩
    · exact Kept.inputWrites ⟨rfl, rfl⟩
    · cases hl
  | ok i =>
    rw [onCmd_of_decode_ok hdec, exec_eq] at h
    obtain ⟨-, rfl⟩ | ⟨-, -, rfl⟩ | ⟨-, -, rfl⟩ | ⟨-, -, hbody⟩ := onCommand_cases h
    · exact Kept.inputWrites ⟨rfl, rfl⟩
    · exact Kept.inputWrites ⟨rfl, rfl⟩
    · exact Kept.inputWrites ⟨rfl, rfl⟩
    · obtain rfl := encode_of_decode_ok hdec
      obtain ⟨hl, hread, hreg, hout⟩ := execBody_writes hbody
      refine ⟨hl, hread.imp_right ?_, .inl hreg, hout.imp_right ?_⟩
      · rintro rfl
        exact .inl rfl
      · rintro (⟨rfl, hres⟩ | ⟨idx, v, rfl⟩)
        · exact .inl ⟨rfl, hres⟩
        · exact .inr ⟨idx, v, rfl⟩

theorem onClkRise_keeps (s : State) : Keeps (bookkept .clkRise s) (onClkRise s) := by
  unfold onClkRise
  split_ifs with hc
  · exact Kept.keeps ⟨by simp [State.levels, bookkept, clkAfter, datAfter, rxAfter, hc], rfl⟩
  · exact onEvent_keeps (cpClkRise_keeps (bookkept .clkRise s))

theorem onClkFall_keeps (s : State) : Keeps (bookkept .clkFall s) (onClkFall s) := by
  unfold onClkFall
  split_ifs with hc
  · exact onEvent_keeps (cpClkFall_keeps (bookkept .clkFall s))
  · exact Kept.keeps ⟨by simp [State.levels, bookkept, clkAfter, datAfter, rxAfter, hc], rfl⟩

theorem onDatSet_keeps (v : Bool) (s : State) : Keeps (bookkept (.datSet v) s) (onDatSet v s) := by
  simp only [onDatSet]
  split_ifs with hd
  · exact Kept.keeps ⟨by simp [State.levels, bookkept, clkAfter, datAfter, rxAfter, hd], rfl⟩
  · exact Kept.keeps ⟨rfl, rfl⟩
  · exact onEvent_keeps (cpDatFall_keeps (bookkept (.datSet v) s))

/-- Writing back the value a channel has changes nothing. -/
@[simp] theorem PerChannel.set_get_self {α : Type} (p : PerChannel α) (ch : Channel) : p.set ch (p.get ch) = p := by
  cases ch <;> rfl

theorem onRxSet_keeps (ch : Channel) (v : Bool) (s : State) : Keeps (bookkept (.rxSet ch v) s) (onRxSet ch v s) := by
  simp only [onRxSet]
  split_ifs with hr
  · exact Kept.keeps ⟨by simp [State.levels, bookkept, clkAfter, datAfter, rxAfter, ← hr], rfl⟩
  · exact Kept.keeps ⟨rfl, rfl⟩
  · exact onEvent_keeps (stmRxFall_keeps ch (bookkept (.rxSet ch v) s))

/-- What any input but `Reset` can write, once for all of them. -/
theorem takeInput_writes {i : Input} {s t : State} (hi : i ≠ .reset) (h : takeInput i s = .next t) :
    InputWrites i s t := by
  cases i with
  | cmd w => exact onCmd_writes h
  | clkRise => exact (onClkRise_keeps s t h).inputWrites
  | clkFall => exact (onClkFall_keeps s t h).inputWrites
  | datSet v => exact (onDatSet_keeps v s t h).inputWrites
  | wake => exact Kept.inputWrites (onEvent_keeps (cpWake_keeps s) t h)
  | rxSet ch v => exact (onRxSet_keeps ch v s t h).inputWrites
  | delayDone => exact Kept.inputWrites (onEvent_keeps (stmDelayDone_keeps s) t h)
  | bitTick => exact Kept.inputWrites (onEvent_keeps (stmBitTick_keeps s) t h)
  | rollover =>
    obtain ⟨hl, hread, hreg, hout⟩ := onRollover_writes h
    exact ⟨hl, hread.imp_right fun h' => .inr ⟨rfl, h'⟩, hreg.imp_right fun h' => ⟨rfl, h'⟩, .inl hout⟩
  | reset => exact absurd rfl hi

/-- After any input the levels are those of the line bookkeeping; `Reset` puts them high (R41, R340). -/
theorem takeInput_levels {i : Input} {s t : State} (h : takeInput i s = .next t) : t.levels = (bookkept i s).levels := by
  by_cases hi : i = .reset
  · subst hi
    cases h
    rfl
  · exact (takeInput_writes hi h).levels

/-- Settles O50: the levels after an input are the bookkeeping's, and each line input looks for a change of level first. -/
theorem lineBookkeeping : Obligations.LineBookkeeping := by
  refine ⟨fun i s t h => ?_, fun s => ⟨fun hc => if_pos hc, fun hc => ?_, fun v hd => if_pos hd, fun ch v hr => if_pos hr⟩⟩
  · exact Levels.mk.inj (takeInput_levels h)
  · rw [takeInput, onClkFall, hc]
    rfl

/-- An armed engine that does not measure is probing, when `STM_OP` and `STS` go together (R55). -/
theorem State.StmOk.op_eq_typeprobe {s : State} (h : s.StmOk) (hs : s.stm.sts = .armed) (hop : s.stm.op ≠ .measure) :
    s.stm.op = .typeprobe := by
  obtain ⟨hidle, -⟩ := h
  cases hc : s.stm.op with
  | none => cases hs.symm.trans (hidle.mpr hc)
  | measure => exact absurd hc hop
  | typeprobe => rfl

/-- Settles O54: a change of an output leaves the writing alternatives of `InputWrites`. -/
theorem writersOfOutputs : Obligations.WritersOfOutputs := by
  intro i s t hi h
  obtain ⟨-, hread, hreg, hout⟩ := takeInput_writes hi h
  refine ⟨fun hne => ?_, fun hok hne => ?_, fun hne => ?_⟩
  · exact hread.resolve_left fun ⟨ht, hs⟩ => hne.elim (absurd ht) (absurd hs)
  · obtain ⟨hroll, harmed, hop, hres⟩ := hreg.resolve_left hne
    exact ⟨hroll, hok.op_eq_typeprobe harmed hop, hres⟩
  · exact hout.resolve_left hne

end Sys2Proof.Machine
end

section
/-! PROOFS. Every operation keeps the four buffers in the canonical form, from every state that has them so
(20_memory R70, R71). -/

namespace Sys2Proof.Machine

/-- The state an operation answers, if it answers one, has its buffers in the canonical form. -/
def BuffersOkAfter (r : Result) : Prop := ∀ t, r = .next t → t.BuffersOk

theorem BuffersOkAfter.of_next {t : State} (h : t.BuffersOk) : BuffersOkAfter (.next t) := by
  rintro _ ⟨⟩
  exact h

theorem BuffersOkAfter.of_fault {r : Fault} : BuffersOkAfter (.fault r) := by
  rintro _ ⟨⟩

/-! ### The shared operations -/

theorem readByte_buffersOk {b : BufId} {i : Nat} {s : State} {k : Byte → Result} (h : ∀ v, BuffersOkAfter (k v)) :
    BuffersOkAfter (readByte b i s k) :=
  fun t ht => h _ t (readByte_next ht).2

/-- The write stays within the buffer, or the step answers no state (R71). -/
theorem writeByte_buffersOk {b : BufId} {i : Nat} {v : Byte} {s : State} {k : State → Result} (hs : s.BuffersOk)
    (hk : ∀ u, u.BuffersOk → BuffersOkAfter (k u)) : BuffersOkAfter (writeByte b i v s k) := by
  intro t ht
  obtain ⟨hi, hkt⟩ := writeByte_next ht
  exact hk _ (BuffersOk_setBuf_set hs hi v) t hkt

theorem onEvent_buffersOk {act : State → Result} {s : State} (hs : s.BuffersOk) (h : BuffersOkAfter (act s)) :
    BuffersOkAfter (onEvent act s) := by
  intro t ht
  obtain ⟨-, rfl⟩ | ⟨-, hact⟩ := onEvent_cases ht
  · exact hs
  · exact h t hact

theorem onCommand_buffersOk {legal : Bool} {opc : Byte} {body : State → Result} {s : State} (hs : s.BuffersOk)
    (h : legal = true → BuffersOkAfter (body (accept opc s))) : BuffersOkAfter (onCommand legal opc body s) := by
  intro t ht
  obtain ⟨-, rfl⟩ | ⟨-, -, rfl⟩ | ⟨-, -, rfl⟩ | ⟨-, hlegal, hbody⟩ := onCommand_cases ht
  · exact hs
  · exact hs
  · exact hs
  · exact h hlegal t hbody

/-! ### The CP engine -/

theorem startCycle1_buffersOk {s : State} (hs : s.BuffersOk) : (startCycle1 s).BuffersOk := by
  unfold startCycle1
  cases s.cp.dir <;> exact hs

theorem beginTx_buffersOk (v : Byte) {s : State} (hs : s.BuffersOk) : (beginTx v s).BuffersOk := by
  rw [beginTx_eq]
  exact hs

theorem beginRx_buffersOk {s : State} (hs : s.BuffersOk) : (beginRx s).BuffersOk := by
  rw [beginRx_eq]
  exact hs

theorem sendCurrent_buffersOk {s : State} (hs : s.BuffersOk) : BuffersOkAfter (sendCurrent s) :=
  readByte_buffersOk fun v => .of_next (beginTx_buffersOk v hs)

theorem sendmsgDone_buffersOk {s : State} (hs : s.BuffersOk) : BuffersOkAfter (sendmsgDone s) := by
  simp only [sendmsgDone]
  split_ifs
  · exact .of_next hs
  · exact sendCurrent_buffersOk hs
  · exact .of_next hs
  · exact sendCurrent_buffersOk hs

theorem byteDoneTx_buffersOk {s : State} (hs : s.BuffersOk) : BuffersOkAfter (byteDoneTx s) := by
  unfold byteDoneTx
  cases s.cp.op with
  | sendbyte => exact .of_next hs
  | sendmsg => exact sendmsgDone_buffersOk hs
  | none | waitstart | recvbyte | waitmsg => exact .of_fault

theorem waitmsgDone_buffersOk {s : State} (hs : s.BuffersOk) : BuffersOkAfter (waitmsgDone s) := by
  refine readByte_buffersOk fun len => ?_
  split_ifs
  · exact .of_next hs
  · exact .of_next hs
  · exact .of_next (beginRx_buffersOk hs)

theorem byteDoneRx_buffersOk {s : State} (hs : s.BuffersOk) : BuffersOkAfter (byteDoneRx s) := by
  unfold byteDoneRx
  cases s.cp.op with
  | recvbyte => exact .of_next hs
  | waitmsg => exact waitmsgDone_buffersOk hs
  | none | waitstart | sendbyte | sendmsg => exact .of_fault

theorem appendByte_buffersOk (b : Byte) {s : State} {k : State → Result} (hs : s.BuffersOk)
    (hk : ∀ u, u.BuffersOk → BuffersOkAfter (k u)) : BuffersOkAfter (appendByte b s k) := by
  unfold appendByte
  split_ifs
  · exact .of_next hs
  · exact writeByte_buffersOk hs fun u hu => hk { u with rxIdx := u.rxIdx + 1 } hu

theorem txFall_buffersOk {s : State} (hs : s.BuffersOk) : BuffersOkAfter (txFall s) := by
  simp only [txFall]
  split_ifs
  · exact .of_next hs
  · exact .of_next hs
  · exact .of_next hs
  · exact byteDoneTx_buffersOk hs
  · exact .of_next hs

theorem rxFall_buffersOk {s : State} (hs : s.BuffersOk) : BuffersOkAfter (rxFall s) := by
  unfold rxFall
  split_ifs
  · exact .of_next hs
  · exact appendByte_buffersOk s.cp.shift hs fun u hu => byteDoneRx_buffersOk hu
  · exact .of_next hs

theorem cpClkRise_buffersOk {s : State} (hs : s.BuffersOk) : BuffersOkAfter (cpClkRise s) := by
  unfold cpClkRise
  cases s.cp.cps with
  | xfer =>
    dsimp only [xferRise]
    cases s.cp.dir with
    | tx => dsimp only [txRise]; split_ifs <;> exact .of_next hs
    | rx => dsimp only [rxRise]; split_ifs <;> exact .of_next hs
  | idle | ws1 | ws2 | sync => exact .of_next hs

theorem cpClkFall_buffersOk {s : State} (hs : s.BuffersOk) : BuffersOkAfter (cpClkFall s) := by
  unfold cpClkFall
  cases s.cp.cps with
  | sync => exact .of_next (startCycle1_buffersOk hs)
  | xfer =>
    dsimp only [xferFall]
    cases s.cp.dir with
    | tx => exact txFall_buffersOk hs
    | rx => exact rxFall_buffersOk hs
  | idle | ws1 | ws2 => exact .of_next hs

theorem cpDatFall_buffersOk {s : State} (hs : s.BuffersOk) : BuffersOkAfter (cpDatFall s) := by
  unfold cpDatFall
  cases s.cp.cps with
  | ws1 => dsimp only; split_ifs <;> exact .of_next hs
  | idle | ws2 | sync | xfer => exact .of_next hs

theorem cpWake_buffersOk {s : State} (hs : s.BuffersOk) : BuffersOkAfter (cpWake s) := by
  unfold cpWake
  cases s.cp.cps <;> exact .of_next hs

/-! ### The STM engine -/

theorem stmDelayDone_buffersOk {s : State} (hs : s.BuffersOk) : BuffersOkAfter (stmDelayDone s) := by
  unfold stmDelayDone
  cases s.stm.sts <;> exact .of_next hs

theorem stmRxFall_buffersOk (ch : Channel) {s : State} (hs : s.BuffersOk) : BuffersOkAfter (stmRxFall ch s) := by
  unfold stmRxFall
  cases s.stm.sts with
  | armed => dsimp only; split_ifs <;> exact .of_next hs
  | idle | exciting | sampling => exact .of_next hs

theorem stmBitTick_buffersOk {s : State} (hs : s.BuffersOk) : BuffersOkAfter (stmBitTick s) := by
  unfold stmBitTick
  cases s.stm.sts with
  | sampling =>
    dsimp only
    split_ifs
    · exact .of_next hs
    · exact writeByte_buffersOk hs fun u hu => .of_next hu
  | idle | exciting | armed => exact .of_next hs

theorem finishStm_buffersOk (P : Params) (timedOut : Bool) {s : State} (hs : s.BuffersOk) :
    (finishStm P timedOut s).BuffersOk := by
  rw [finishStm_eq]
  exact hs

theorem stmRollover_buffersOk (P : Params) {s : State} (hs : s.BuffersOk) : BuffersOkAfter (stmRollover P s) := by
  unfold stmRollover
  cases s.stm.sts with
  | armed =>
    simp only [countRollover]
    split_ifs
    · exact .of_next (finishStm_buffersOk P false hs)
    · exact .of_next (finishStm_buffersOk P true hs)
    · exact .of_next hs
  | idle | exciting | sampling => exact .of_next hs

/-! ### The commands -/

/-- The CRC that goes into `TX_BUF` fits it, the length being legal (R173, R185, R195). -/
theorem buffersOk_crcSend (P : Params) {len : Byte} {s : State} (hs : s.BuffersOk) (hlen : legalLen len = true) :
    ({ s with txBuf := crcSend P s.txBuf len.toNat } : State).BuffersOk := by
  obtain ⟨hrx, htx, hout, hstm⟩ := hs
  obtain ⟨hmin, hmax⟩ := (legalLen_iff len).mp hlen
  exact ⟨hrx, crcSend_wf htx (by omega) hmax, hout, hstm⟩

theorem startSendmsg_buffersOk (P : Params) {len : Byte} {s : State} (hs : s.BuffersOk) (hlen : legalLen len = true) :
    BuffersOkAfter (startSendmsg P len s) := by
  rw [startSendmsg]
  exact sendCurrent_buffersOk (buffersOk_crcSend P hs hlen)

/-- The frame that CP.GRABMSG copies has passed the check of its length against `OUT_BUF` (R190). -/
theorem grabmsg_buffersOk (P : Params) {s : State} (hs : s.BuffersOk) : (grabmsg P s).BuffersOk := by
  simp only [grabmsg]
  split_ifs with hhdr hcap
  case pos | pos | pos | pos | pos => exact hs
  case neg =>
    obtain ⟨hrx, htx, hout, hstm⟩ := hs
    refine ⟨hrx, htx, Memory.setList_wf _ hout ?_, hstm⟩
    rw [Memory.slice_length, Nat.zero_add]
    exact Nat.not_lt.mp hcap

theorem startStm_buffersOk (op : StmOp) (ch : Channel) {s : State} (hs : s.BuffersOk) :
    (startStm op ch s).BuffersOk := by
  obtain ⟨hrx, htx, hout, -⟩ := hs
  exact ⟨hrx, htx, hout, Memory.nil_wf _⟩

theorem execBody_buffersOk {i : Instr} {s : State} (hi : i.wellFormed = true) (hs : s.BuffersOk) :
    BuffersOkAfter (execBody i s) := by
  cases i with
  | cpSendbyte v => exact .of_next (beginTx_buffersOk v hs)
  | cpRecvbyte | cpWaitmsg => exact .of_next (beginRx_buffersOk hs)
  | cpSendmsg len => exact startSendmsg_buffersOk params hs hi
  | cpGrabmsg => exact .of_next (grabmsg_buffersOk params hs)
  | crcRun mode len =>
    cases mode with
    | send => exact .of_next (buffersOk_crcSend params hs hi)
    | recv => exact .of_next hs
  | stmMeasure ch => exact .of_next (startStm_buffersOk .measure ch hs)
  | stmTypeprobe ch => exact .of_next (startStm_buffersOk .typeprobe ch hs)
  | stmParse =>
    rw [execBody, parse_eq]
    exact .of_next hs
  | bufWrite buf idx v =>
    rw [execBody]
    exact writeByte_buffersOk hs fun u hu => .of_next hu
  | bufRead buf idx =>
    rw [execBody]
    exact readByte_buffersOk fun v => .of_next hs
  | cpWaitstart | stmChecksum | regRead => exact .of_next hs

/-! ### The inputs -/

theorem onCmd_buffersOk (w : Word) {s : State} (hs : s.BuffersOk) : BuffersOkAfter (onCmd w s) := by
  cases h : decode w with
  | ok i =>
    rw [onCmd_of_decode_ok h, exec_eq]
    exact onCommand_buffersOk hs fun hi => execBody_buffersOk hi hs
  | error e =>
    rw [onCmd_of_decode_error h]
    exact onCommand_buffersOk hs fun _ => .of_next hs

theorem takeInput_buffersOk (i : Input) {s : State} (hs : s.BuffersOk) : BuffersOkAfter (takeInput i s) := by
  cases i with
  | cmd w => exact onCmd_buffersOk w hs
  | clkRise =>
    simp only [takeInput, onClkRise]
    split_ifs
    · exact .of_next hs
    · exact onEvent_buffersOk hs (cpClkRise_buffersOk hs)
  | clkFall =>
    simp only [takeInput, onClkFall]
    split_ifs
    · exact onEvent_buffersOk hs (cpClkFall_buffersOk hs)
    · exact .of_next hs
  | datSet v =>
    simp only [takeInput, onDatSet]
    split_ifs
    · exact .of_next hs
    · exact .of_next hs
    · exact onEvent_buffersOk hs (cpDatFall_buffersOk hs)
  | wake => exact onEvent_buffersOk hs (cpWake_buffersOk hs)
  | rxSet ch v =>
    simp only [takeInput, onRxSet]
    split_ifs
    · exact .of_next hs
    · exact .of_next hs
    · exact onEvent_buffersOk hs (stmRxFall_buffersOk ch hs)
  | delayDone => exact onEvent_buffersOk hs (stmDelayDone_buffersOk hs)
  | bitTick => exact onEvent_buffersOk hs (stmBitTick_buffersOk hs)
  | rollover => exact onEvent_buffersOk hs (stmRollover_buffersOk params hs)
  | reset => exact .of_next reset_buffersOk

/-- Settles O60: a step takes an input or none, and every write an input makes stays within its buffer. -/
theorem buffersStayCanonical : Obligations.BuffersStayCanonical := by
  intro s t hs ht
  cases hin : s.inbox with
  | nil =>
    rw [step_of_inbox_nil hin] at ht
    cases ht
    exact hs
  | cons i rest =>
    rw [step_of_inbox_cons hin] at ht
    exact takeInput_buffersOk i (s := { s with inbox := rest }) hs t ht

end Sys2Proof.Machine
end

section
/-! PROOFS. The invariant by what is in flight: nothing, a CP command, or an STM command (20_memory R84,
60_exceptions R301). -/

namespace Sys2Proof.Machine

/-- The invariant but for the form of the buffers, which every step keeps by itself. -/
abbrev State.ControlOk (s : State) : Prop :=
  s.CountersOk ∧ s.StatusOk ∧ s.EnginesOk ∧ s.CpOk ∧ s.DriveOk ∧ s.StmOk

/-- No CP command is in flight (R45, R46, R110). -/
abbrev State.CpIdle (s : State) : Prop :=
  s.cp.cps = .idle ∧ s.cp.op = .none ∧ s.lines.cpOe = false

/-- No STM command is in flight (R55, R211, R240). -/
abbrev State.StmIdle (s : State) : Prop :=
  s.stm.sts = .idle ∧ s.stm.op = .none ∧ s.stm.edgeEn = false ∧ s.lines.exc = PerChannel.all false

/-- No command is in flight, in a fault or not. -/
abbrev State.AtRest (s : State) : Prop :=
  s.CountersOk ∧ s.StatusOk ∧ s.status.active = false ∧ s.CpIdle ∧ s.StmIdle

/-- A CP command is in flight: what holds whatever its engine does. -/
abbrev State.CpCommand (s : State) : Prop :=
  s.CountersOk ∧ s.StatusOk ∧ s.status.active = true ∧ s.StmIdle

/-- An STM command is in flight: what holds whatever its engine does. -/
abbrev State.StmCommand (s : State) : Prop :=
  s.CountersOk ∧ s.StatusOk ∧ s.status.active = true ∧ s.CpIdle ∧ s.stm.op ≠ .none ∧
    (s.stm.nmax = s.stm.op.iterations ∧ s.stm.tocnt.toNat < s.stm.nmax.toNat) ∧
    s.lines.exc = (PerChannel.all false).set s.stm.ch true

/-- The CP command is one that sends bytes (R129). -/
abbrev State.Sends (s : State) : Prop := s.cp.op = .sendbyte ∨ s.cp.op = .sendmsg ∧ s.SendmsgOk

/-- The CP command is one that receives bytes (R146). -/
abbrev State.Receives (s : State) : Prop := s.cp.op = .recvbyte ∨ s.cp.op = .waitmsg ∧ s.WaitmsgOk

/-- The direction of the byte transfer is the one of its command. -/
abbrev State.Owned (s : State) : Prop := s.cp.dir = .tx ∧ s.Sends ∨ s.cp.dir = .rx ∧ s.Receives

/-! ### The parts of the invariant, by engine -/

theorem State.CpIdle.cpOk {s : State} (h : s.CpIdle) : s.CpOk := by
  obtain ⟨hcps, hop, -⟩ := h
  simp [State.CpOk, hcps, hop]

theorem State.CpIdle.driveOk {s : State} (h : s.CpIdle) : s.DriveOk := by
  obtain ⟨hcps, -, hoe⟩ := h
  simp [State.DriveOk, hcps, hoe]

theorem State.StmIdle.stmOk {s : State} (h : s.StmIdle) : s.StmOk := by
  obtain ⟨hsts, hop, hedge, hexc⟩ := h
  simp [State.StmOk, hsts, hop, hedge, hexc]

theorem State.CpOk.cpIdle {s : State} (h : s.CpOk) (hd : s.DriveOk) (hc : s.cp.cps = .idle) : s.CpIdle := by
  obtain ⟨hop, -⟩ := h
  exact ⟨hc, hop.mp hc, hd.cpOe_of_idle hc⟩

theorem State.StmOk.stmIdle {s : State} (h : s.StmOk) (hs : s.stm.sts = .idle) : s.StmIdle := by
  have hreleased := h.released_of_idle hs
  obtain ⟨hop, -⟩ := h
  exact ⟨hs, hop.mp hs, hreleased⟩

theorem State.Owned.cpOk {s : State} (ho : s.Owned)
    (hcps : s.cp.cps = .sync ∧ s.lines.clkLvl = true ∨ s.cp.cps = .xfer) : s.CpOk := by
  have hidle : s.cp.cps ≠ .idle := by rintro h; simp [h] at hcps
  have hwait : ¬(s.cp.cps = .ws1 ∨ s.cp.cps = .ws2) := by rintro (h | h) <;> simp [h] at hcps
  have hsync : s.cp.cps = .sync → s.lines.clkLvl = true := by rintro h; simpa [h] using hcps
  obtain ⟨hdir, hop | ⟨hop, hok⟩⟩ | ⟨hdir, hop | ⟨hop, hok⟩⟩ := ho
  · refine ⟨?_, ?_, ?_, hsync, ?_, ?_⟩ <;> simp [hidle, hwait, hdir, hop]
  · refine ⟨?_, ?_, ?_, hsync, fun _ => hok, ?_⟩ <;> simp [hidle, hwait, hdir, hop]
  · refine ⟨?_, ?_, ?_, hsync, ?_, ?_⟩ <;> simp [hidle, hwait, hdir, hop]
  · refine ⟨?_, ?_, ?_, hsync, ?_, fun _ => hok⟩ <;> simp [hidle, hwait, hdir, hop]

theorem State.CpOk.owned {s : State} (h : s.CpOk) (hc : s.cp.cps = .sync ∨ s.cp.cps = .xfer) : s.Owned := by
  obtain ⟨hnone, hwait, hdir, -, hsend, hrecv⟩ := h
  have hnone : s.cp.op ≠ .none := fun h => by simp [hnone.mpr h] at hc
  have hwait : s.cp.op ≠ .waitstart := fun h => by obtain h | h := hwait.mpr h <;> simp [h] at hc
  cases hd : s.cp.dir with
  | tx => exact .inl ⟨hd, ((hdir hc).mp hd).imp_right fun hop => ⟨hop, hsend hop⟩⟩
  | rx =>
    refine .inr ⟨hd, ?_⟩
    have hsends : ¬(s.cp.op = .sendbyte ∨ s.cp.op = .sendmsg) := fun h => by simp [(hdir hc).mpr h] at hd
    cases hop : s.cp.op with
    | recvbyte => exact .inl hop
    | waitmsg => exact .inr ⟨hop, hrecv hop⟩
    | none => exact absurd hop hnone
    | waitstart => exact absurd hop hwait
    | sendbyte => exact absurd (.inl hop) hsends
    | sendmsg => exact absurd (.inr hop) hsends

/-! ### The invariant from what is in flight, and back -/

theorem State.AtRest.controlOk {s : State} (h : s.AtRest) : s.ControlOk := by
  obtain ⟨hcount, hstat, ha, hcp, hstm⟩ := h
  have hengines : s.EnginesOk := by
    obtain ⟨hcps, -⟩ := hcp
    obtain ⟨hsts, -⟩ := hstm
    simp [State.EnginesOk, ha, hcps, hsts]
  exact ⟨hcount, hstat, hengines, hcp.cpOk, hcp.driveOk, hstm.stmOk⟩

theorem State.ControlOk.atRest {s : State} (h : s.ControlOk) (ha : s.status.active = false) : s.AtRest := by
  obtain ⟨hcount, hstat, ⟨hactive, -⟩, hcp, hdrive, hstm⟩ := h
  obtain ⟨hcps, hsts⟩ := hactive.mp ha
  exact ⟨hcount, hstat, ha, hcp.cpIdle hdrive hcps, hstm.stmIdle hsts⟩

theorem State.CpCommand.controlOk {s : State} (h : s.CpCommand) (hcps : s.cp.cps ≠ .idle) (hcp : s.CpOk)
    (hdrive : s.DriveOk) : s.ControlOk := by
  obtain ⟨hcount, hstat, ha, hstm⟩ := h
  have hengines : s.EnginesOk := by
    obtain ⟨hsts, -⟩ := hstm
    simp [State.EnginesOk, ha, hcps, hsts]
  exact ⟨hcount, hstat, hengines, hcp, hdrive, hstm.stmOk⟩

theorem State.ControlOk.cpCommand {s : State} (h : s.ControlOk) (hcps : s.cp.cps ≠ .idle) : s.CpCommand := by
  obtain ⟨hcount, hstat, ⟨hactive, hone⟩, -, -, hstm⟩ := h
  have ha : s.status.active = true := by simpa [hcps] using hactive
  exact ⟨hcount, hstat, ha, hstm.stmIdle (hone.resolve_left hcps)⟩

theorem State.StmCommand.controlOk {s : State} (h : s.StmCommand) (hsts : s.stm.sts ≠ .idle)
    (hedge : s.stm.edgeEn = true ↔ s.stm.sts = .armed) : s.ControlOk := by
  obtain ⟨hcount, hstat, ha, hcp, hop, hbound, hexc⟩ := h
  have hengines : s.EnginesOk := by
    obtain ⟨hcps, -⟩ := hcp
    simp [State.EnginesOk, ha, hcps, hsts]
  have hstm : s.StmOk := ⟨by simp [hsts, hop], hedge, fun _ => hbound, by rw [hexc, if_neg hsts]⟩
  exact ⟨hcount, hstat, hengines, hcp.cpOk, hcp.driveOk, hstm⟩

theorem State.ControlOk.stmCommand {s : State} (h : s.ControlOk) (hsts : s.stm.sts ≠ .idle) : s.StmCommand := by
  obtain ⟨hcount, hstat, ⟨hactive, hone⟩, hcp, hdrive, ⟨hop, -, hbound, hexc⟩⟩ := h
  have ha : s.status.active = true := by simpa [hsts] using hactive
  exact ⟨hcount, hstat, ha, hcp.cpIdle hdrive (hone.resolve_right hsts), fun hnone => hsts (hop.mpr hnone), hbound hsts,
    by rw [hexc, if_neg hsts]⟩

end Sys2Proof.Machine
end

section
/-! PROOFS. Every input taken from a state that meets the invariant ends in a next state that meets it
(20_memory R71, 40_cp_link R129, R146, 41_framer R183, 42_stm R240, 60_exceptions R301, R312). -/

namespace Sys2Proof.Machine

/-! ### Events and the ends of commands -/

theorem Ends.of_next {t : State} {p : State → Prop} (h : p t) : Ends (.next t) p := ⟨t, rfl, h⟩

theorem onEvent_controlOk {act : State → Result} {s : State} (hs : s.ControlOk)
    (h : s.status.fault = false → Ends (act s) State.ControlOk) : Ends (onEvent act s) State.ControlOk := by
  cases hf : s.status.fault with
  | true => rw [onEvent_fault hf]; exact .of_next hs
  | false => rw [onEvent_live hf]; exact h hf

theorem State.StatusOk.of_inactive {s t : State} (h : s.StatusOk) (ht : t.status = { s.status with active := false }) :
    t.StatusOk := by
  obtain ⟨hcause, -, hbits⟩ := h
  rw [State.StatusOk, ht]
  exact ⟨hcause, fun _ => rfl, hbits⟩

theorem finish_controlOk (code : Word) {s : State} (hcount : s.CountersOk) (hstat : s.StatusOk) (hcp : s.CpIdle)
    (hstm : s.StmIdle) : (finish code s).ControlOk :=
  State.AtRest.controlOk ⟨hcount, hstat.of_inactive rfl, rfl, hcp, hstm⟩

/-- A CP command ends with the line released (R13). -/
theorem finishCp_controlOk (code : Word) {s : State} (h : s.CpCommand) (hoe : s.lines.cpOe = false) :
    (finishCp code s).ControlOk := by
  obtain ⟨hcount, hstat, -, hstm⟩ := h
  exact finish_controlOk code hcount hstat ⟨rfl, rfl, hoe⟩ hstm

/-- A fault leaves both engines idle and every line released (R312). -/
theorem raiseFault_controlOk {s : State} (hcount : s.CountersOk) (hstat : s.StatusOk) :
    (raiseFault .rxOverrun s).ControlOk := by
  obtain ⟨-, -, hbits⟩ := hstat
  exact State.AtRest.controlOk
    ⟨hcount, ⟨iff_of_true rfl rfl, fun _ => rfl, hbits⟩, rfl, ⟨rfl, rfl, rfl⟩, ⟨rfl, rfl, rfl, rfl⟩⟩

/-! ### The start of a byte transfer -/

theorem State.CpCommand.with_cyc {s : State} (h : s.CpCommand) {n : BitVec 4} (hn : 1 ≤ n.toNat ∧ n.toNat ≤ 10) :
    ({ s with cp := { s.cp with cyc := n } } : State).CpCommand := by
  obtain ⟨⟨hrx, hring, -, hrest⟩, hother⟩ := h
  exact ⟨⟨hrx, hring, hn, hrest⟩, hother⟩

/-- Cycle 1 drives the line in a send and not in a receive (R110, R125). -/
theorem startCycle1_controlOk {s : State} (h : s.CpCommand) (ho : s.Owned) : (startCycle1 s).ControlOk := by
  have hcyc := h.with_cyc (n := 1) (by decide)
  unfold startCycle1
  cases hdir : s.cp.dir <;>
  exact State.CpCommand.controlOk hcyc (by simp) (State.Owned.cpOk ho (.inr rfl)) (by simp [State.DriveOk, hdir])

theorem alignByte_controlOk {s : State} (h : s.CpCommand) (ho : s.Owned) (hoe : s.lines.cpOe = false) :
    (alignByte s).ControlOk := by
  unfold alignByte
  split_ifs with hclk
  · exact State.CpCommand.controlOk h (by simp) (State.Owned.cpOk ho (.inl ⟨rfl, hclk⟩)) (by simp [State.DriveOk, hoe])
  · exact startCycle1_controlOk h ho

theorem beginTx_controlOk (v : Byte) {s : State} (h : s.CpCommand) (hs : s.Sends) (hoe : s.lines.cpOe = false) :
    (beginTx v s).ControlOk := by
  unfold beginTx
  exact alignByte_controlOk h (.inl ⟨rfl, hs⟩) hoe

theorem beginRx_controlOk {s : State} (h : s.CpCommand) (hr : s.Receives) (hoe : s.lines.cpOe = false) :
    (beginRx s).ControlOk := by
  unfold beginRx
  exact alignByte_controlOk h (.inr ⟨rfl, hr⟩) hoe

/-- A frame in progress has its current byte within `TX_BUF` (R71, R188). -/
theorem sendCurrent_controlOk {s : State} (h : s.CpCommand) (hop : s.cp.op = .sendmsg) (hok : s.SendmsgOk)
    (hoe : s.lines.cpOe = false) : Ends (sendCurrent s) State.ControlOk := by
  have htxi : s.cp.txi.toNat < 64 := by
    obtain ⟨-, hlen, htxi, -⟩ := hok
    omega
  rw [sendCurrent_of_lt htxi]
  exact .of_next (beginTx_controlOk _ h (.inr ⟨hop, hok⟩) hoe)

/-! ### The end of a byte transfer -/

/-- The frame goes on only below its length and its failure budget (R187, R188). -/
theorem sendmsgDone_controlOk {s : State} (h : s.CpCommand) (hop : s.cp.op = .sendmsg) (hok : s.SendmsgOk)
    (hoe : s.lines.cpOe = false) : Ends (sendmsgDone s) State.ControlOk := by
  obtain ⟨⟨hrx, hring, hcyc, hfail, htxi, hstmcount⟩, hother⟩ := h
  obtain ⟨hmin, hmax, hlt, hbudget⟩ := hok
  have hfailed : (s.cp.fail + 1).toNat = s.cp.fail.toNat + 1 := by bv_omega
  have hacked : (s.cp.txi + 1).toNat = s.cp.txi.toNat + 1 := by bv_omega
  have hnack : ({ s with cp := { s.cp with fail := s.cp.fail + 1 } } : State).CpCommand :=
    ⟨⟨hrx, hring, hcyc, by dsimp only; omega, htxi, hstmcount⟩, hother⟩
  have hack : ({ s with cp := { s.cp with txi := s.cp.txi + 1 } } : State).CpCommand :=
    ⟨⟨hrx, hring, hcyc, hfail, by dsimp only; omega, hstmcount⟩, hother⟩
  simp only [sendmsgDone]
  split_ifs with _ hend hend
  · exact .of_next (finishCp_controlOk 0 hnack hoe)
  · refine sendCurrent_controlOk hnack hop ⟨hmin, hmax, hlt, ?_⟩ hoe
    have hne : (s.cp.fail + 1).toNat ≠ 5 := fun h => hend (BitVec.eq_of_toNat_eq h)
    dsimp only
    omega
  · exact .of_next (finishCp_controlOk 0 hack hoe)
  · refine sendCurrent_controlOk hack hop ⟨hmin, hmax, ?_, hbudget⟩ hoe
    have hne : (s.cp.txi + 1).toNat ≠ s.cp.len.toNat := fun h => hend (BitVec.eq_of_toNat_eq h)
    dsimp only
    omega

theorem byteDoneTx_controlOk {s : State} (h : s.CpCommand) (hs : s.Sends) (hoe : s.lines.cpOe = false) :
    Ends (byteDoneTx s) State.ControlOk := by
  unfold byteDoneTx
  obtain hop | ⟨hop, hok⟩ := hs
  · rw [hop]
    exact .of_next (finishCp_controlOk _ h hoe)
  · rw [hop]
    exact sendmsgDone_controlOk h hop hok hoe

/-- A CP.WAITMSG that has appended a byte: at most the end of its frame is reached (R182). -/
abbrev State.WaitmsgAppended (s : State) : Prop :=
  s.rxIdx.toNat ≤ 4 ∨ legalLen (s.rxBuf.get 1) = true ∧ s.rxIdx.toNat ≤ (s.rxBuf.get 1).toNat

/-- The byte at index 1 is not written again after four bytes, and a legal length is more than four (R182, R183). -/
theorem State.WaitmsgOk.appended {s : State} (h : s.WaitmsgOk) (hrx : s.rxBuf.wf BufId.rx.cap)
    (hroom : s.rxIdx.toNat < 64) (b : Byte) :
    ({ s with rxBuf := s.rxBuf.set s.rxIdx.toNat b, rxIdx := s.rxIdx + 1 } : State).WaitmsgAppended := by
  have hsucc : (s.rxIdx + 1).toNat = s.rxIdx.toNat + 1 := by bv_omega
  by_cases hhdr : s.rxIdx.toNat < 4
  · exact .inl (by dsimp only; omega)
  · obtain ⟨hlegal, hlt⟩ := h.resolve_left hhdr
    have hlen : (s.rxBuf.set s.rxIdx.toNat b).get 1 = s.rxBuf.get 1 := Memory.get_set_ne hrx b (by omega)
    refine .inr ?_
    dsimp only
    rw [hlen, hsucc]
    exact ⟨hlegal, hlt⟩

/-- With neither end of the frame reached, the next byte stands before it (R182, R183). -/
theorem State.WaitmsgAppended.waitmsgOk {s : State} (h : s.WaitmsgAppended)
    (hbad : ¬(s.rxIdx = 4 ∧ legalLen (s.rxBuf.get 1) = false))
    (hend : ¬(4 ≤ s.rxIdx.toNat ∧ s.rxIdx.toNat = (s.rxBuf.get 1).toNat)) : s.WaitmsgOk := by
  by_cases hhdr : s.rxIdx.toNat < 4
  · exact .inl hhdr
  refine .inr ?_
  by_cases hfour : s.rxIdx = 4
  · have hlegal : legalLen (s.rxBuf.get 1) = true := by simpa [hfour] using hbad
    obtain ⟨hmin, -⟩ := (legalLen_iff _).mp hlegal
    have hidx : s.rxIdx.toNat = 4 := by rw [hfour]; rfl
    exact ⟨hlegal, by omega⟩
  · have hne : s.rxIdx.toNat ≠ 4 := fun h => hfour (BitVec.eq_of_toNat_eq h)
    obtain ⟨hlegal, hle⟩ := h.resolve_left (by omega)
    exact ⟨hlegal, by omega⟩

theorem waitmsgDone_controlOk {s : State} (h : s.CpCommand) (hop : s.cp.op = .waitmsg) (happ : s.WaitmsgAppended)
    (hoe : s.lines.cpOe = false) : Ends (waitmsgDone s) State.ControlOk := by
  rw [waitmsgDone, readByte_of_lt (show 1 < BufId.rx.cap by decide)]
  split_ifs with hbad hend
  · obtain ⟨⟨-, hcount⟩, hother⟩ := h
    exact .of_next (finishCp_controlOk (s := { s with rxIdx := 0 }) 1 ⟨⟨Nat.zero_le 64, hcount⟩, hother⟩ hoe)
  · exact .of_next (finishCp_controlOk 0 h hoe)
  · have hok : s.WaitmsgOk := happ.waitmsgOk (by simpa [State.buf] using hbad) fun ⟨hfour, hlen⟩ =>
      hend (by simp [State.buf, hfour, ← hlen])
    exact .of_next (beginRx_controlOk h (.inr ⟨hop, hok⟩) hoe)

/-- `append` faults on a full buffer; else the byte is in and its command goes on or ends (R145, R146). -/
theorem appendByte_controlOk (b : Byte) {s : State} (hrx : s.rxBuf.wf BufId.rx.cap) (h : s.CpCommand) (hr : s.Receives)
    (hoe : s.lines.cpOe = false) : Ends (appendByte b s byteDoneRx) State.ControlOk := by
  obtain ⟨⟨hidx, hcount⟩, hstat, hother⟩ := h
  by_cases hfull : s.rxIdx = 64
  · rw [appendByte_full hfull]
    exact .of_next (raiseFault_controlOk ⟨hidx, hcount⟩ hstat)
  · have hne : s.rxIdx.toNat ≠ 64 := fun h => hfull (BitVec.eq_of_toNat_eq h)
    have hroom : s.rxIdx.toNat < 64 := by omega
    have hcmd : ({ s with rxBuf := s.rxBuf.set s.rxIdx.toNat b, rxIdx := s.rxIdx + 1 } : State).CpCommand :=
      ⟨⟨by bv_omega, hcount⟩, hstat, hother⟩
    rw [appendByte_room hroom, byteDoneRx]
    obtain hop | ⟨hop, hok⟩ := hr
    · rw [hop]
      exact .of_next (finishCp_controlOk 0 hcmd hoe)
    · rw [hop]
      exact waitmsgDone_controlOk hcmd hop (hok.appended hrx hroom b) hoe

/-! ### The clock in a byte transfer -/

theorem driveOk_tx_iff {s : State} (hcps : s.cp.cps = .xfer) (hdir : s.cp.dir = .tx) :
    s.DriveOk ↔ (s.lines.cpOe = true ↔ s.cp.cyc.toNat ≤ 9) := by
  simp [State.DriveOk, hcps, hdir]

theorem driveOk_rx_iff {s : State} (hcps : s.cp.cps = .xfer) (hdir : s.cp.dir = .rx) :
    s.DriveOk ↔ (s.lines.cpOe = true ↔ s.cp.cyc = 10) := by
  simp [State.DriveOk, hcps, hdir]

theorem nextCycle_controlOk {s : State} (h : s.CpCommand) (ho : s.Owned) (hcps : s.cp.cps = .xfer)
    (hcyc : s.cp.cyc.toNat ≤ 9) (hdrive : (nextCycle s).DriveOk) : (nextCycle s).ControlOk := by
  have hcmd : (nextCycle s).CpCommand := h.with_cyc (n := s.cp.cyc + 1) (by bv_omega)
  exact hcmd.controlOk (by simp [hcps]) (State.Owned.cpOk ho (.inr hcps)) hdrive

/-- A send moves on with the line as the next cycle wants it: driven but in cycle 10 (R110, R127). -/
theorem nextCycle_tx_controlOk {s : State} (h : s.CpCommand) (hs : s.Sends) (hcps : s.cp.cps = .xfer)
    (hdir : s.cp.dir = .tx) (hcyc : s.cp.cyc.toNat ≤ 9) (hoe : s.lines.cpOe = true ↔ s.cp.cyc.toNat ≤ 8) :
    (nextCycle s).ControlOk := by
  have hnext : (s.cp.cyc + 1).toNat ≤ 9 ↔ s.cp.cyc.toNat ≤ 8 := by bv_omega
  exact nextCycle_controlOk h (.inl ⟨hdir, hs⟩) hcps hcyc
    ((driveOk_tx_iff (s := nextCycle s) hcps hdir).mpr (hoe.trans hnext.symm))

/-- A receive moves on with the line as the next cycle wants it: driven in cycle 10 alone (R110, R141). -/
theorem nextCycle_rx_controlOk {s : State} (h : s.CpCommand) (hr : s.Receives) (hcps : s.cp.cps = .xfer)
    (hdir : s.cp.dir = .rx) (hcyc : s.cp.cyc.toNat ≤ 9) (hoe : s.lines.cpOe = true ↔ s.cp.cyc = 9) :
    (nextCycle s).ControlOk := by
  have hnext : s.cp.cyc + 1 = 10 ↔ s.cp.cyc = 9 := by bv_omega
  exact nextCycle_controlOk h (.inr ⟨hdir, hr⟩) hcps hcyc
    ((driveOk_rx_iff (s := nextCycle s) hcps hdir).mpr (hoe.trans hnext.symm))

theorem txFall_controlOk {s : State} (h : s.CpCommand) (hdrive : s.DriveOk) (hcps : s.cp.cps = .xfer)
    (hdir : s.cp.dir = .tx) (hs : s.Sends) : Ends (txFall s) State.ControlOk := by
  have hoe : s.lines.cpOe = true ↔ s.cp.cyc.toNat ≤ 9 := (driveOk_tx_iff hcps hdir).mp hdrive
  have ⟨⟨_, _, ⟨_, hcyc⟩, _⟩, _⟩ := h
  simp only [txFall]
  split_ifs with h7 h8 h9 h10
  · exact .of_next (nextCycle_tx_controlOk h hs hcps hdir (by dsimp only; omega)
      (iff_of_true (hoe.mpr (by omega)) (by dsimp only; omega)))
  · exact .of_next (nextCycle_tx_controlOk h hs hcps hdir (by dsimp only; omega)
      (iff_of_true (hoe.mpr (by omega)) (by dsimp only; omega)))
  · exact .of_next (nextCycle_tx_controlOk h hs hcps hdir (by dsimp only; omega) (by simp [h9]))
  · exact byteDoneTx_controlOk h hs (by simpa [h10] using hoe)
  · omega

theorem rxFall_controlOk {s : State} (hrx : s.rxBuf.wf BufId.rx.cap) (h : s.CpCommand) (hdrive : s.DriveOk)
    (hcps : s.cp.cps = .xfer) (hdir : s.cp.dir = .rx) (hr : s.Receives) : Ends (rxFall s) State.ControlOk := by
  have hoe : s.lines.cpOe = true ↔ s.cp.cyc = 10 := (driveOk_rx_iff hcps hdir).mp hdrive
  have ⟨⟨_, _, ⟨_, hcyc⟩, _⟩, _⟩ := h
  unfold rxFall
  split_ifs with h9 h10
  · exact .of_next (nextCycle_rx_controlOk h hr hcps hdir (by simp [h9]) (by simp [h9]))
  · exact appendByte_controlOk _ hrx h hr rfl
  · exact .of_next (nextCycle_rx_controlOk h hr hcps hdir (by bv_omega) (iff_of_false (hoe.not.mpr h10) h9))

/-! ### The CP engine -/

/-- The two waits of CP.WAITSTART leave the line released (R120). -/
theorem waiting_controlOk {s : State} (h : s.CpCommand) (hop : s.cp.op = .waitstart)
    (hcps : s.cp.cps = .ws1 ∨ s.cp.cps = .ws2) (hoe : s.lines.cpOe = false) : s.ControlOk := by
  obtain hcps | hcps := hcps <;>
  exact h.controlOk (by simp [hcps]) (by simp [State.CpOk, hcps, hop]) (by simp [State.DriveOk, hcps, hoe])

theorem State.DriveOk.cpOe_of_ne_xfer {s : State} (h : s.DriveOk) (hc : s.cp.cps ≠ .xfer) :
    s.lines.cpOe = false := by
  simpa [State.DriveOk, hc] using h

/-- A clock level but for the fall that `CP_SYNC` waits for (R41, R126). -/
theorem State.ControlOk.controlOk_withClk {s : State} (h : s.ControlOk) {v : Bool} (hv : v = true ∨ s.cp.cps ≠ .sync) :
    (withClk v s).ControlOk := by
  obtain ⟨hcount, hstat, hengines, ⟨hnone, hwait, hdir, -, hsend, hrecv⟩, hdrive, hstm⟩ := h
  have hsync : s.cp.cps = .sync → v = true := fun hc => hv.resolve_right (absurd hc)
  exact ⟨hcount, hstat, hengines, ⟨hnone, hwait, hdir, hsync, hsend, hrecv⟩, hdrive, hstm⟩

theorem cpClkRise_controlOk {s : State} (h : s.ControlOk) : Ends (cpClkRise s) State.ControlOk := by
  unfold cpClkRise
  cases s.cp.cps with
  | xfer =>
    dsimp only [xferRise]
    cases s.cp.dir with
    | tx => dsimp only [txRise]; split_ifs <;> exact .of_next h
    | rx => dsimp only [rxRise]; split_ifs <;> exact .of_next h
  | idle | ws1 | ws2 | sync => exact .of_next h

/-- A clock fall outside `CP_SYNC`. -/
theorem cpClkFall_controlOk {s : State} (hrx : s.rxBuf.wf BufId.rx.cap) (h : s.ControlOk) (hc : s.cp.cps ≠ .sync) :
    Ends (cpClkFall s) State.ControlOk := by
  have ⟨_, _, _, hcp, hdrive, _⟩ := h
  unfold cpClkFall
  cases hcps : s.cp.cps with
  | ws2 =>
    have hcmd : s.CpCommand := h.cpCommand (by simp [hcps])
    exact .of_next (finishCp_controlOk 1 hcmd (hdrive.cpOe_of_ne_xfer (by simp [hcps])))
  | xfer =>
    have hcmd : s.CpCommand := h.cpCommand (by simp [hcps])
    dsimp only [xferFall]
    obtain ⟨hdir, hs⟩ | ⟨hdir, hr⟩ := hcp.owned (.inr hcps)
    · rw [hdir]
      exact txFall_controlOk hcmd hdrive hcps hdir hs
    · rw [hdir]
      exact rxFall_controlOk hrx hcmd hdrive hcps hdir hr
  | sync => exact absurd hcps hc
  | idle | ws1 => exact .of_next h

/-- The clock fall that `CP_SYNC` waits for starts cycle 1 (R126). -/
theorem cpClkFall_sync_controlOk {s : State} (h : s.ControlOk) (hc : s.cp.cps = .sync) :
    Ends (cpClkFall (withClk false s)) State.ControlOk := by
  have ⟨_, _, _, hcp, _, _⟩ := h
  have hfall : cpClkFall (withClk false s) = .next (startCycle1 (withClk false s)) := by simp [cpClkFall, withClk, hc]
  rw [hfall]
  exact .of_next (startCycle1_controlOk (s := withClk false s) (h.cpCommand (by simp [hc])) (hcp.owned (.inl hc)))

theorem cpDatFall_controlOk {s : State} (h : s.ControlOk) : Ends (cpDatFall s) State.ControlOk := by
  unfold cpDatFall
  cases hcps : s.cp.cps with
  | ws1 =>
    dsimp only
    split_ifs
    · have hcmd : s.CpCommand := h.cpCommand (by simp [hcps])
      obtain ⟨-, -, -, ⟨-, hwait, -⟩, hdrive, -⟩ := h
      have hoe : s.lines.cpOe = false := hdrive.cpOe_of_ne_xfer (by simp [hcps])
      exact .of_next (waiting_controlOk hcmd (hwait.mp (.inl hcps)) (.inr rfl) hoe)
    · exact .of_next h
  | idle | ws2 | sync | xfer => exact .of_next h

theorem cpWake_controlOk {s : State} (h : s.ControlOk) : Ends (cpWake s) State.ControlOk := by
  unfold cpWake
  cases hcps : s.cp.cps with
  | ws1 =>
    have ⟨_, _, _, _, hdrive, _⟩ := h
    exact .of_next (finishCp_controlOk 0 (h.cpCommand (by simp [hcps])) (hdrive.cpOe_of_ne_xfer (by simp [hcps])))
  | idle | ws2 | sync | xfer => exact .of_next h

/-! ### The STM engine -/

theorem stmDelayDone_controlOk {s : State} (h : s.ControlOk) : Ends (stmDelayDone s) State.ControlOk := by
  unfold stmDelayDone
  cases hsts : s.stm.sts with
  | exciting =>
    obtain ⟨⟨hrx, hring, hcyc, hfail, htxi, -, hk⟩, hstat, ha, hcp, hop, ⟨hmax, hbound⟩, hexc⟩ :=
      h.stmCommand (by simp [hsts])
    have hcmd : ({ s with stm := { s.stm with sts := .armed, edgeEn := true, tocnt := 0 } } : State).StmCommand :=
      ⟨⟨hrx, hring, hcyc, hfail, htxi, Nat.zero_le 10, hk⟩, hstat, ha, hcp, hop, ⟨hmax, Nat.zero_lt_of_lt hbound⟩, hexc⟩
    exact .of_next (hcmd.controlOk (by simp) (by simp))
  | idle | armed | sampling => exact .of_next h

/-- A bit count within its range leaves a command in flight as it is. -/
theorem State.StmCommand.with_k {s : State} (h : s.StmCommand) {k : BitVec 4} (hk : 1 ≤ k.toNat ∧ k.toNat ≤ 9) :
    ({ s with stm := { s.stm with k := k } } : State).StmCommand := by
  obtain ⟨⟨hrx, hring, hcyc, hfail, htxi, htocnt, -⟩, hother⟩ := h
  exact ⟨⟨hrx, hring, hcyc, hfail, htxi, htocnt, hk⟩, hother⟩

theorem stmRxFall_controlOk (ch : Channel) {s : State} (h : s.ControlOk) : Ends (stmRxFall ch s) State.ControlOk := by
  unfold stmRxFall
  cases hsts : s.stm.sts with
  | armed =>
    dsimp only
    split_ifs
    · have hcmd := (h.stmCommand (by simp [hsts])).with_k (k := 9) (by decide)
      exact .of_next (State.StmCommand.controlOk hcmd (by simp) (by simp))
    · exact .of_next h
  | idle | exciting | sampling => exact .of_next h

/-- The ring index goes back to 0 at its end (R226). -/
theorem storeByte_controlOk (b : Byte) {s : State} (h : s.StmCommand) (hsts : s.stm.sts = .armed)
    (hedge : s.stm.edgeEn = true) : Ends (storeByte b s) State.ControlOk := by
  obtain ⟨⟨hrx, hring, hcount⟩, hother⟩ := h
  have hnext : (if s.stmIdx.toNat + 1 = 20 then 0 else s.stmIdx + 1).toNat < 20 := by
    split_ifs with hend
    · decide
    · bv_omega
  rw [storeByte_of_lt hring]
  exact .of_next (State.StmCommand.controlOk ⟨⟨hrx, hnext, hcount⟩, hother⟩ (by simp [hsts]) (by simp [hsts, hedge]))

theorem stmBitTick_controlOk {s : State} (h : s.ControlOk) : Ends (stmBitTick s) State.ControlOk := by
  unfold stmBitTick
  cases hsts : s.stm.sts with
  | sampling =>
    have hcmd := h.stmCommand (by simp [hsts])
    have ⟨⟨_, _, _, _, _, _, ⟨_, hk⟩⟩, _, _, _, _, ⟨_, hedge, _⟩⟩ := h
    dsimp only
    split_ifs with hbit
    · have hbits := hcmd.with_k (k := s.stm.k - 1) (by bv_omega)
      exact .of_next (State.StmCommand.controlOk (s := stmDataBit _ s) hbits (by simp [stmDataBit, hsts]) hedge)
    · exact storeByte_controlOk s.stm.shift (s := rearm s) (hcmd.with_k (k := 9) (by decide)) rfl rfl
  | idle | exciting | armed => exact .of_next h

/-- An STM command ends with its channel unpowered (R228, R240). -/
theorem finishStm_controlOk (P : Params) (timedOut : Bool) {s : State} (hcount : s.CountersOk) (hstat : s.StatusOk)
    (hcp : s.CpIdle) (hexc : s.lines.exc = (PerChannel.all false).set s.stm.ch true) :
    (finishStm P timedOut s).ControlOk := by
  have hoff : s.lines.exc.set s.stm.ch false = PerChannel.all false := by rw [hexc]; simp
  rw [finishStm_eq]
  exact State.AtRest.controlOk ⟨hcount, hstat.of_inactive rfl, rfl, hcp, ⟨rfl, rfl, rfl, hoff⟩⟩

theorem StmOp.iterations_le (op : StmOp) : op.iterations.toNat ≤ 10 := by
  cases op <;> decide

/-- The count goes on only below its bound (R219). -/
theorem countRollover_controlOk (P : Params) {s : State} (h : s.StmCommand) (hsts : s.stm.sts = .armed)
    (hedge : s.stm.edgeEn = true) : (countRollover P s).ControlOk := by
  obtain ⟨⟨hrx, hring, hcyc, hfail, htxi, -, hk⟩, hstat, ha, hcp, hop, ⟨hmax, hbound⟩, hexc⟩ := h
  have hmax10 : s.stm.nmax.toNat ≤ 10 := hmax ▸ s.stm.op.iterations_le
  have hsucc : (s.stm.tocnt + 1).toNat = s.stm.tocnt.toNat + 1 := by bv_omega
  have hcount : ({ s with stm := { s.stm with tocnt := s.stm.tocnt + 1 } } : State).CountersOk :=
    ⟨hrx, hring, hcyc, hfail, htxi, by dsimp only; omega, hk⟩
  simp only [countRollover]
  split_ifs with hlf hend
  · exact finishStm_controlOk P false hcount hstat hcp hexc
  · exact finishStm_controlOk P true hcount hstat hcp hexc
  · have hne : (s.stm.tocnt + 1).toNat ≠ s.stm.nmax.toNat := fun h => hend (BitVec.eq_of_toNat_eq h)
    exact State.StmCommand.controlOk ⟨hcount, hstat, ha, hcp, hop, ⟨hmax, by dsimp only; omega⟩, hexc⟩ (by simp [hsts])
      (by simp [hsts, hedge])

theorem stmRollover_controlOk (P : Params) {s : State} (h : s.ControlOk) : Ends (stmRollover P s) State.ControlOk := by
  unfold stmRollover
  cases hsts : s.stm.sts with
  | armed =>
    have hcmd := h.stmCommand (by simp [hsts])
    obtain ⟨-, -, -, -, -, ⟨-, hedge, -⟩⟩ := h
    exact .of_next (countRollover_controlOk P hcmd hsts (hedge.mpr hsts))
  | idle | exciting | sampling => exact .of_next h

/-! ### The commands -/

/-- A command ends in its accepting step (R301). -/
theorem State.AtRest.controlOk_finish {s : State} (h : s.AtRest) (code : Word) : (finish code s).ControlOk := by
  obtain ⟨hcount, hstat, -, hcp, hstm⟩ := h
  exact finish_controlOk code hcount hstat hcp hstm

theorem State.AtRest.atRest_accept {s : State} (h : s.AtRest) (opc : Byte) : (accept opc s).AtRest := by
  obtain ⟨hcount, ⟨hcause, hfault, -⟩, hother⟩ := h
  exact ⟨hcount, ⟨hcause, hfault, by simp⟩, hother⟩

/-- With no fault, a command that waits may begin (R301). -/
theorem State.AtRest.cpCommand_activate {s : State} (h : s.AtRest) (hf : s.status.fault = false) :
    (activate s).CpCommand := by
  obtain ⟨hcount, ⟨hcause, -, hbits⟩, -, -, hstm⟩ := h
  exact ⟨hcount, ⟨hcause, by simp [hf], hbits⟩, rfl, hstm⟩

theorem State.AtRest.atRest_setBuf {s : State} (h : s.AtRest) (buf : BufId) (m : Memory) : (s.setBuf buf m).AtRest := by
  cases buf <;> exact h

/-- A frame begins at byte 0 with no failure (R185). -/
theorem startSendmsg_controlOk (P : Params) {len : Byte} {s : State} (hlen : legalLen len = true) (h : s.AtRest)
    (hf : s.status.fault = false) : Ends (startSendmsg P len s) State.ControlOk := by
  obtain ⟨⟨hrx, hring, hcyc, -, -, hstmcount⟩, hstat, ha, ⟨hcps, hop, hoe⟩, hstm⟩ := h
  obtain ⟨hmin, hmax⟩ := (legalLen_iff len).mp hlen
  have hrest : ({ s with cp := { s.cp with fail := 0, txi := 0 } } : State).AtRest :=
    ⟨⟨hrx, hring, hcyc, Nat.zero_le 5, Nat.zero_le 64, hstmcount⟩, hstat, ha, ⟨hcps, hop, hoe⟩, hstm⟩
  have hlen7 : 6 ≤ (len.setWidth 7).toNat ∧ (len.setWidth 7).toNat ≤ 64 := by
    rw [BitVec.toNat_setWidth]
    omega
  obtain ⟨hmin7, hmax7⟩ := hlen7
  rw [startSendmsg]
  exact sendCurrent_controlOk (hrest.cpCommand_activate hf) rfl
    ⟨hmin7, hmax7, Nat.zero_lt_of_lt hmin7, Nat.zero_lt_succ 4⟩ hoe

/-- An STM command powers its channel alone and has its whole bound ahead (R215). -/
theorem startStm_controlOk {op : StmOp} (hop : op ≠ .none) (ch : Channel) {s : State} (h : s.AtRest)
    (hf : s.status.fault = false) : (startStm op ch s).ControlOk := by
  obtain ⟨⟨hrx, -, hcyc, hfail, htxi, -, hk⟩, ⟨hcause, -, hbits⟩, -, hcp, ⟨-, -, -, hexc⟩⟩ := h
  have hbound : 0 < op.iterations.toNat := by cases op <;> decide
  have hcmd : (startStm op ch s).StmCommand :=
    ⟨⟨hrx, Nat.zero_lt_succ 19, hcyc, hfail, htxi, Nat.zero_le 10, hk⟩, ⟨hcause, by simp [hf], hbits⟩, rfl, hcp, hop,
      ⟨rfl, hbound⟩, by simp [hexc]⟩
  exact hcmd.controlOk (by simp) (by simp)

theorem grabmsg_controlOk (P : Params) {s : State} (h : s.AtRest) : (grabmsg P s).ControlOk := by
  simp only [grabmsg]
  split_ifs
  case pos | pos | pos | pos | pos => exact h.controlOk_finish _
  case neg =>
    obtain ⟨⟨-, hcount⟩, hother⟩ := h
    exact State.AtRest.controlOk_finish (s := { s with outBuf := _, rxIdx := 0 }) ⟨⟨Nat.zero_le 64, hcount⟩, hother⟩ 0

theorem execBody_controlOk {i : Instr} {s : State} (hi : i.wellFormed = true) (h : s.AtRest)
    (hf : s.status.fault = false) : Ends (execBody i s) State.ControlOk := by
  have hcmd : (activate s).CpCommand := h.cpCommand_activate hf
  have ⟨⟨_, hcount⟩, hother⟩ := hcmd
  have ⟨_, _, _, ⟨_, _, hoe⟩, _⟩ := h
  cases i with
  | cpWaitstart => exact .of_next (waiting_controlOk (s := startWaitstart s) hcmd rfl (.inl rfl) rfl)
  | cpSendbyte v => exact .of_next (beginTx_controlOk v hcmd (.inl rfl) hoe)
  | cpRecvbyte => exact .of_next (beginRx_controlOk hcmd (.inl rfl) hoe)
  | cpWaitmsg =>
    exact .of_next (beginRx_controlOk ⟨⟨Nat.zero_le 64, hcount⟩, hother⟩ (.inr ⟨rfl, .inl (Nat.zero_lt_succ 3)⟩) hoe)
  | cpSendmsg len => exact startSendmsg_controlOk params hi h hf
  | cpGrabmsg => exact .of_next (grabmsg_controlOk params h)
  | crcRun mode len =>
    cases mode with
    | send => exact .of_next (State.AtRest.controlOk_finish (s := { s with txBuf := _ }) h 1)
    | recv => exact .of_next (h.controlOk_finish _)
  | stmMeasure ch => exact .of_next (startStm_controlOk (by decide) ch h hf)
  | stmTypeprobe ch => exact .of_next (startStm_controlOk (by decide) ch h hf)
  | stmParse =>
    rw [execBody, parse_eq]
    exact .of_next (State.AtRest.controlOk_finish (s := { s with temp := _, soil := _ }) h 0)
  | bufWrite buf idx v =>
    rw [execBody, writeByte_of_lt ((legalIdx_iff buf idx).mp hi)]
    exact .of_next ((h.atRest_setBuf buf _).controlOk_finish 0)
  | bufRead buf idx =>
    rw [execBody, readByte_of_lt ((legalIdx_iff buf idx).mp hi)]
    exact .of_next (h.controlOk_finish _)
  | stmChecksum | regRead => exact .of_next (h.controlOk_finish _)

/-- A command word is ignored, rejected, or runs its body with nothing in flight (R300). -/
theorem onCommand_controlOk {legal : Bool} {opc : Byte} {body : State → Result} {s : State} (hs : s.ControlOk)
    (h : legal = true → s.status.fault = false → (accept opc s).AtRest → Ends (body (accept opc s)) State.ControlOk) :
    Ends (onCommand legal opc body s) State.ControlOk := by
  have ⟨hcount, ⟨hcause, hfault, _⟩, hother⟩ := hs
  unfold onCommand
  split_ifs with hf ha hlegal
  · exact .of_next hs
  · exact .of_next ⟨hcount, ⟨hcause, hfault, by simp⟩, hother⟩
  · exact h hlegal (by simpa using hf) ((hs.atRest (by simpa using ha)).atRest_accept opc)
  · exact .of_next ⟨hcount, ⟨hcause, hfault, by simp⟩, hother⟩

/-! ### The inputs -/

theorem onCmd_controlOk (w : Word) {s : State} (hs : s.ControlOk) : Ends (onCmd w s) State.ControlOk := by
  cases h : decode w with
  | ok i =>
    rw [onCmd_of_decode_ok h, exec_eq]
    exact onCommand_controlOk hs fun hi hf hrest => execBody_controlOk hi hrest hf
  | error e =>
    rw [onCmd_of_decode_error h]
    exact onCommand_controlOk hs fun hlegal => absurd hlegal Bool.false_ne_true

/-- The clock falls in `CP_SYNC`, where no fault stands, or elsewhere (R126, R307). -/
theorem onClkFall_controlOk {s : State} (hrx : s.rxBuf.wf BufId.rx.cap) (hs : s.ControlOk) :
    Ends (onClkFall s) State.ControlOk := by
  unfold onClkFall
  split_ifs
  · by_cases hc : s.cp.cps = .sync
    · obtain ⟨-, ⟨-, hfault, -⟩, ha, -⟩ := hs.cpCommand (by simp [hc])
      have hf : s.status.fault = false := by simpa [ha] using hfault
      rw [onEvent_live (by exact hf)]
      exact cpClkFall_sync_controlOk hs hc
    · have hlow : (withClk false s).ControlOk := hs.controlOk_withClk (.inr hc)
      exact onEvent_controlOk hlow fun _ => cpClkFall_controlOk hrx hlow hc
  · exact .of_next hs

theorem takeInput_controlOk (i : Input) {s : State} (hrx : s.rxBuf.wf BufId.rx.cap) (hs : s.ControlOk) :
    Ends (takeInput i s) State.ControlOk := by
  cases i with
  | cmd w => exact onCmd_controlOk w hs
  | clkRise =>
    simp only [takeInput, onClkRise]
    split_ifs
    · exact .of_next hs
    · have hhigh : (withClk true s).ControlOk := hs.controlOk_withClk (.inl rfl)
      exact onEvent_controlOk hhigh fun _ => cpClkRise_controlOk hhigh
  | clkFall => exact onClkFall_controlOk hrx hs
  | datSet v =>
    simp only [takeInput, onDatSet]
    split_ifs
    · exact .of_next hs
    · exact .of_next hs
    · exact onEvent_controlOk hs fun _ => cpDatFall_controlOk hs
  | wake => exact onEvent_controlOk hs fun _ => cpWake_controlOk hs
  | rxSet ch v =>
    simp only [takeInput, onRxSet]
    split_ifs
    · exact .of_next hs
    · exact .of_next hs
    · exact onEvent_controlOk hs fun _ => stmRxFall_controlOk ch hs
  | delayDone => exact onEvent_controlOk hs fun _ => stmDelayDone_controlOk hs
  | bitTick => exact onEvent_controlOk hs fun _ => stmBitTick_controlOk hs
  | rollover => exact onEvent_controlOk hs fun _ => stmRollover_controlOk params hs
  | reset =>
    obtain ⟨-, hreset⟩ := resetMeetsInvariant
    exact .of_next hreset

theorem step_controlOk {s : State} (hrx : s.rxBuf.wf BufId.rx.cap) (hs : s.ControlOk) :
    Ends (step s) State.ControlOk := by
  cases hin : s.inbox with
  | nil =>
    rw [step_of_inbox_nil hin]
    exact .of_next hs
  | cons i rest =>
    rw [step_of_inbox_cons hin]
    exact takeInput_controlOk i hrx hs

/-- Settles O59: the engines, counters and drives stay in step with the command in flight, and the buffers canonical. -/
theorem invariantKept : Obligations.InvariantKept := by
  rintro s ⟨hbuf, hctl⟩
  have ⟨hrx, _⟩ := hbuf
  obtain ⟨t, ht, htctl⟩ := step_controlOk hrx hctl
  exact ⟨t, ht, buffersStayCanonical s t hbuf ht, htctl⟩

end Sys2Proof.Machine
end

section
/-! PROOFS. The command word (30_encoding R90–R97): decoding and encoding are inverse, the ranges of R93 are exactly
the words that decode, and the opcode table has one row for each. -/

namespace Sys2Proof

open Sys2Proof.Machine

/-! ### Decoding a command's word -/

/-- A command's word holds the command's opcode and operands, field by field (R90, R91). -/
theorem each_field_encode (i : Instr) :
    fieldOpc (encode i) = i.opcode ∧ fieldA (encode i) = i.operands.1 ∧ fieldB (encode i) = i.operands.2.1 ∧
      fieldC (encode i) = i.operands.2.2 :=
  fields_wordOf _ _ _ _

/-- Decoding a command's word only checks its operands' ranges: every other field is what the encoder put there. -/
theorem decode_encode_eq_ifLegal (i : Instr) : decode (encode i) = ifLegal i := by
  obtain ⟨hopc, ha, hb, hc⟩ := each_field_encode i
  simp only [decode, hopc, ha, hb, hc]
  cases i with
  | crcRun mode len => simp [Instr.opcode, Instr.operands, ifUnused, modeOf_code, Except.bind]
  | stmMeasure ch | stmTypeprobe ch =>
    simp [Instr.opcode, Instr.operands, ifUnused, channelOf_code, Except.bind, ifLegal, Instr.wellFormed]
  | bufWrite buf idx v | bufRead buf idx => simp [Instr.opcode, Instr.operands, ifUnused, bufOf_code, Except.bind]
  | regRead reg => simp [Instr.opcode, Instr.operands, ifUnused, regOf_code, Except.bind, ifLegal, Instr.wellFormed]
  | _ => rfl

/-- Settles O1: the decoder finds the encoder's fields, and a well-formed command passes its range check. -/
theorem decodeOfEncode : Obligations.DecodeOfEncode := fun i hi => by
  rw [decode_encode_eq_ifLegal, ifLegal, if_pos hi]

/-- Settles O2: the word is the command's own, so decoding it has checked the command's operands. -/
theorem encodeOfDecode : Obligations.EncodeOfDecode := by
  intro w i h
  have hw : encode i = w := encode_of_decode_ok h
  rw [← hw, decode_encode_eq_ifLegal] at h
  exact ⟨(ifLegal_ok h).1, hw⟩

/-- Settles O5: each word is evaluated. -/
theorem specWordsDecode : Obligations.SpecWordsDecode := by
  refine ⟨?_, ?_, ?_, ?_, ?_, ?_, ?_, ?_⟩ <;> rfl

/-! ### The opcode table -/

theorem fields_and (w m : Word) :
    fieldOpc (w &&& m) = fieldOpc w &&& fieldOpc m ∧ fieldA (w &&& m) = fieldA w &&& fieldA m ∧
      fieldB (w &&& m) = fieldB w &&& fieldB m ∧ fieldC (w &&& m) = fieldC w &&& fieldC m :=
  ⟨BitVec.extractLsb'_and, BitVec.extractLsb'_and, BitVec.extractLsb'_and, BitVec.extractLsb'_and⟩

/-- Words with the same four fields are the same. -/
theorem eq_of_fields {w w' : Word} (ho : fieldOpc w = fieldOpc w') (ha : fieldA w = fieldA w')
    (hb : fieldB w = fieldB w') (hc : fieldC w = fieldC w') : w = w' := by
  rw [← wordOf_fields w, ho, ha, hb, hc, wordOf_fields]

/-- A word fits a row when each of its fields does. -/
theorem OpcodeRow.fits_of_fields {r : OpcodeRow} {w : Word} (ho : fieldOpc w &&& fieldOpc r.mask = fieldOpc r.pattern)
    (ha : fieldA w &&& fieldA r.mask = fieldA r.pattern) (hb : fieldB w &&& fieldB r.mask = fieldB r.pattern)
    (hc : fieldC w &&& fieldC r.mask = fieldC r.pattern) : r.fits w = true := by
  obtain ⟨hao, haa, hab, hac⟩ := fields_and w r.mask
  exact decide_eq_true (eq_of_fields (hao.trans ho) (haa.trans ha) (hab.trans hb) (hac.trans hc))

/-- Every row fixes the whole opcode (R92). -/
theorem opcodeTable_mask_opc : ∀ r ∈ opcodeTable, fieldOpc r.mask = 0xFF := by decide

/-- No opcode has two rows (R92). -/
theorem opcodeTable_opcodes_nodup : (opcodeTable.map fun r => fieldOpc r.pattern).Nodup := by decide

/-- A word that fits a row has the row's opcode. -/
theorem OpcodeRow.fieldOpc_of_fits {r : OpcodeRow} {w : Word} (hr : r ∈ opcodeTable) (h : r.fits w = true) :
    fieldOpc w = fieldOpc r.pattern := by
  have hand : w &&& r.mask = r.pattern := of_decide_eq_true h
  obtain ⟨hopc, -⟩ := fields_and w r.mask
  rw [← hand, hopc, opcodeTable_mask_opc r hr]
  exact BitVec.and_allOnes.symm

/-- A channel's code leaves the bits its rows' masks keep at 0. -/
theorem Channel.code_and (ch : Channel) : ch.code &&& 252#8 = 0#8 := by cases ch <;> rfl

theorem BufId.code_and (buf : BufId) : buf.code &&& 252#8 = 0#8 := by cases buf <;> rfl

theorem CrcMode.code_and (mode : CrcMode) : mode.code &&& 254#8 = 0#8 := by cases mode <;> rfl

theorem RegId.code_and (reg : RegId) : reg.code &&& 240#8 = 0#8 := by
  cases reg with
  | stype ch => cases ch <;> rfl
  | _ => rfl

/-- A command's word fits a row when its opcode and each of its operands do. -/
theorem OpcodeRow.fits_encode {r : OpcodeRow} {i : Instr} (ho : i.opcode &&& fieldOpc r.mask = fieldOpc r.pattern)
    (ha : i.operands.1 &&& fieldA r.mask = fieldA r.pattern)
    (hb : i.operands.2.1 &&& fieldB r.mask = fieldB r.pattern)
    (hc : i.operands.2.2 &&& fieldC r.mask = fieldC r.pattern) : r.fits (encode i) = true := by
  obtain ⟨hopc, hfa, hfb, hfc⟩ := each_field_encode i
  exact OpcodeRow.fits_of_fields (hopc ▸ ho) (hfa ▸ ha) (hfb ▸ hb) (hfc ▸ hc)

/-- The row of a command's place in the table is the command's own (R92, R95): it fixes the opcode and the unused
fields, and of an operand the bits that are 0 in every code. -/
theorem exists_row_fits_encode (i : Instr) : ∃ r, opcodeTable[i.rowIndex]? = some r ∧ r.fits (encode i) = true := by
  cases i <;> refine ⟨_, rfl, OpcodeRow.fits_encode ?_ ?_ ?_ ?_⟩ <;>
    simp [Instr.opcode, Instr.operands, fieldOpc, fieldA, fieldB, fieldC, Channel.code_and, BufId.code_and,
      CrcMode.code_and, RegId.code_and]

/-- Settles O3: every row fixes the opcode and no two rows have the same; a command's fields fit its row's one by one. -/
theorem opcodeRowsDisjoint : Obligations.OpcodeRowsDisjoint := by
  refine ⟨fun w r r' hr hr' h h' => ?_, exists_row_fits_encode⟩
  have hopc : fieldOpc r.pattern = fieldOpc r'.pattern := (r.fieldOpc_of_fits hr h).symm.trans (r'.fieldOpc_of_fits hr' h')
  exact List.inj_on_of_nodup_map opcodeTable_opcodes_nodup hr hr' hopc

/-! ### The legal words by their ranges -/

/-- Operand codes are numbered from 0 without a gap: a byte up to the last code is one. -/
theorem exists_code_of_le {α : Type} {part : Byte → Except DecodeError α} {code : α → Byte}
    (hcode : ∀ {b : Byte} {x : α}, part b = .ok x → code x = b) {last : Nat}
    (hall : ∀ n ≤ last, (part (BitVec.ofNat 8 n)).isOk = true) {b : Byte} (hb : b.toNat ≤ last) : ∃ x, code x = b := by
  have hok := hall b.toNat hb
  rw [BitVec.ofNat_toNat, BitVec.setWidth_eq] at hok
  cases hpart : part b with
  | ok x => exact ⟨x, hcode hpart⟩
  | error e => rw [hpart] at hok; cases hok

theorem CrcMode.exists_code {b : Byte} (h : b.toNat ≤ 1) : ∃ mode : CrcMode, mode.code = b :=
  exists_code_of_le modeOf_ok (by decide) h

theorem Channel.exists_code {b : Byte} (h : b.toNat ≤ 3) : ∃ ch : Channel, ch.code = b :=
  exists_code_of_le channelOf_ok (by decide) h

theorem BufId.exists_code {b : Byte} (h : b.toNat ≤ 3) : ∃ buf : BufId, buf.code = b :=
  exists_code_of_le bufOf_ok (by decide) h

theorem RegId.exists_code {b : Byte} (h : b.toNat ≤ 0x0B) : ∃ reg : RegId, reg.code = b :=
  exists_code_of_le regOf_ok (by decide) h

theorem CrcMode.code_le (mode : CrcMode) : mode.code.toNat ≤ 1 := by cases mode <;> decide

theorem Channel.code_le (ch : Channel) : ch.code.toNat ≤ 3 := by cases ch <;> decide

theorem RegId.code_le (reg : RegId) : reg.code.toNat ≤ 0x0B := by
  cases reg with
  | stype ch => cases ch <;> decide
  | _ => decide

/-- The buffer operands of R93, by code and index. -/
theorem BufId.lt_cap_iff (buf : BufId) (n : Nat) :
    n < buf.cap ↔ buf.code.toNat ≤ 2 ∧ n < 64 ∨ buf.code.toNat = 3 ∧ n < 20 := by
  cases buf <;> simp [BufId.cap, BufId.code]

/-- A well-formed command's fields are in the ranges. -/
theorem legalByRanges_encode {i : Instr} (h : i.wellFormed = true) : legalByRanges (encode i) := by
  obtain ⟨hopc, ha, hb, hc⟩ := each_field_encode i
  simp only [legalByRanges, hopc, ha, hb, hc]
  cases i with
  | cpSendmsg len => simpa [legalFields, Instr.opcode, Instr.operands] using (legalLen_iff len).mp h
  | crcRun mode len =>
    simpa [legalFields, Instr.opcode, Instr.operands, mode.code_le] using (legalLen_iff len).mp h
  | stmMeasure ch | stmTypeprobe ch => simp [legalFields, Instr.opcode, Instr.operands, ch.code_le]
  | bufWrite buf idx v | bufRead buf idx =>
    simpa [legalFields, Instr.opcode, Instr.operands] using (buf.lt_cap_iff _).mp ((legalIdx_iff buf idx).mp h)
  | regRead reg => simp [legalFields, Instr.opcode, Instr.operands, reg.code_le]
  | _ => simp [legalFields, Instr.opcode, Instr.operands]

theorem BufId.exists_code_legalIdx {a idx : Byte} (h : a.toNat ≤ 2 ∧ idx.toNat < 64 ∨ a.toNat = 3 ∧ idx.toNat < 20) :
    ∃ buf : BufId, buf.code = a ∧ legalIdx buf idx = true := by
  obtain ⟨buf, rfl⟩ := BufId.exists_code (show a.toNat ≤ 3 by omega)
  exact ⟨buf, rfl, (legalIdx_iff buf idx).mpr ((buf.lt_cap_iff _).mpr h)⟩

/-- Fields in the ranges are those of a well-formed command. -/
theorem exists_command_of_legalFields {o a b c : Byte} (h : legalFields o.toNat a.toNat b.toNat c.toNat) :
    ∃ i : Instr, i.wellFormed = true ∧ encode i = wordOf o a b c := by
  have byte {x : Byte} {n : Nat} (hx : x.toNat = n) : x = BitVec.ofNat 8 n := by rw [← hx]; simp
  obtain ⟨ho, ha, hb, hc⟩ | ⟨ho, ha, hb⟩ | ⟨ho, ha, hc, hlen⟩ | ⟨ho, hmode, hc, hlen⟩ | ⟨ho, hch, hb, hc⟩ | ⟨ho, hbuf⟩ |
    ⟨ho, hbuf, hc⟩ | ⟨ho, hreg, hb, hc⟩ := h
  · obtain rfl := byte ha
    obtain rfl := byte hb
    obtain rfl := byte hc
    obtain ho | ho | ho | ho | ho | ho := ho <;> obtain rfl := byte ho
    · exact ⟨.cpWaitstart, rfl, rfl⟩
    · exact ⟨.cpRecvbyte, rfl, rfl⟩
    · exact ⟨.cpWaitmsg, rfl, rfl⟩
    · exact ⟨.cpGrabmsg, rfl, rfl⟩
    · exact ⟨.stmChecksum, rfl, rfl⟩
    · exact ⟨.stmParse, rfl, rfl⟩
  · rw [byte ho, byte ha, byte hb]
    exact ⟨.cpSendbyte c, rfl, rfl⟩
  · rw [byte ho, byte ha, byte hc]
    exact ⟨.cpSendmsg b, (legalLen_iff b).mpr hlen, rfl⟩
  · obtain ⟨mode, rfl⟩ := CrcMode.exists_code hmode
    rw [byte ho, byte hc]
    exact ⟨.crcRun mode b, (legalLen_iff b).mpr hlen, rfl⟩
  · obtain ⟨ch, rfl⟩ := Channel.exists_code hch
    rw [byte hb, byte hc]
    obtain ho | ho := ho <;> rw [byte ho]
    · exact ⟨.stmMeasure ch, rfl, rfl⟩
    · exact ⟨.stmTypeprobe ch, rfl, rfl⟩
  · obtain ⟨buf, rfl, hidx⟩ := BufId.exists_code_legalIdx hbuf
    rw [byte ho]
    exact ⟨.bufWrite buf b c, hidx, rfl⟩
  · obtain ⟨buf, rfl, hidx⟩ := BufId.exists_code_legalIdx hbuf
    rw [byte ho, byte hc]
    exact ⟨.bufRead buf b, hidx, rfl⟩
  · obtain ⟨reg, rfl⟩ := RegId.exists_code hreg
    rw [byte ho, byte hb, byte hc]
    exact ⟨.regRead reg, rfl, rfl⟩

/-- The ranges of R93 are exactly the words that decode. -/
theorem legalByRanges_iff_decode (w : Word) : legalByRanges w ↔ ∃ i, decode w = .ok i := by
  constructor
  · intro h
    obtain ⟨i, hi, hw⟩ := exists_command_of_legalFields h
    rw [wordOf_fields] at hw
    exact ⟨i, hw ▸ decodeOfEncode i hi⟩
  · rintro ⟨i, hdec⟩
    obtain ⟨hi, hw⟩ := encodeOfDecode w i hdec
    exact hw ▸ legalByRanges_encode hi

/-- Settles O4: a word outside the ranges decodes to an error, and its write is a rejected command (R303). -/
theorem illegalWordsRejected : Obligations.IllegalWordsRejected := by
  refine ⟨fun w hw => (legalByRanges_iff_decode w).mp hw, fun w hw => ?_⟩
  rw [legalByRanges_iff_decode] at hw
  cases hdec : decode w with
  | ok i => exact absurd ⟨i, hdec⟩ hw
  | error e =>
    refine ⟨⟨e, rfl⟩, fun s hs => ?_⟩
    rw [takeInput, onCmd_of_decode_error hdec, onCommand_illegal hs]
    rfl

/-! ### The expansion of `buf.load` -/

theorem BufId.cap_le (buf : BufId) : buf.cap ≤ 64 := by cases buf <;> decide

/-- While the indices are bytes, `buf.load` expands to the words of BUF.WRITE in order (R97). -/
theorem bufLoadWords_eq (buf : BufId) (bs : List Byte) {idx : Nat} (h : idx + bs.length ≤ 256) :
    bufLoadWords buf.code.toNat idx (bs.map BitVec.toNat) =
      some (bs.mapIdx fun k b => encode (.bufWrite buf (BitVec.ofNat 8 (idx + k)) b)) := by
  induction bs generalizing idx with
  | nil => rfl
  | cons b bs ih =>
    rw [List.length_cons] at h
    have hidx : idx < 256 := by omega
    rw [List.map_cons, bufLoadWords, ih (show idx + 1 + bs.length ≤ 256 by omega), List.mapIdx_cons]
    simp [hidx, buf.code.isLt, b.isLt, encode, Instr.opcode, Instr.operands, Nat.add_assoc, Nat.add_comm 1]

/-- Settles O6: an index below the buffer's capacity is legal, so word `k` of the expansion decodes to its BUF.WRITE. -/
theorem bufLoadExpands : Obligations.BufLoadExpands := by
  intro buf idx bs hfit
  have hcap := buf.cap_le
  refine ⟨_, bufLoadWords_eq buf bs (by omega), List.length_mapIdx, fun k b hb => ?_⟩
  have hk : k < bs.length := (List.getElem?_eq_some_iff.mp hb).1
  have hlegal : legalIdx buf (BitVec.ofNat 8 (idx + k)) = true := by
    rw [legalIdx_iff, BitVec.toNat_ofNat]
    omega
  exact ⟨_, by rw [List.getElem?_mapIdx, hb]; rfl, decodeOfEncode (.bufWrite buf _ b) hlegal⟩

end Sys2Proof
end

section
/-! PROOFS. A run on a list of inputs takes them one by one, and a whole byte sent on the CP link (30_encoding R110,
40_cp_link R125–R130). -/

namespace Sys2Proof.Machine

/-! ### Runs, input by input -/

/-- No input changes the inputs after it (R10). -/
theorem takeInput_inbox {i : Input} {s t : State} (h : takeInput i s = .next t) : t.inbox = s.inbox := by
  have hself : takeInput i s = mapNext (State.withInbox s.inbox) (takeInput i s) := takeInput_ignoresInbox i s.inbox s
  rw [h] at hself
  simp only [mapNext] at hself
  rw [Host.Outcome.next.inj hself]

theorem runs_nil (s : State) : runs [] s = .next s := rfl

/-- A run goes on from the state its first input leaves. -/
theorem runs_cons {i : Input} {is : List Input} {s t : State} (h : takeInput i s = .next t) :
    runs (i :: is) s = runs is t := by
  have hfirst : takeInput i (s.withInbox (is ++ s.inbox)) = .next (deliver is t) := by
    rw [takeInput_ignoresInbox i, h, deliver, takeInput_inbox h]
    rfl
  exact steps_cons (s := deliver (i :: is) s) rfl hfirst

/-- The write of a legal command's word, with nothing in flight, runs the command's body (R300, R301). -/
theorem takeInput_cmd_encode {i : Instr} {s : State} (hi : i.wellFormed = true) (h : s.Ready) :
    takeInput (.cmd (encode i)) s = execBody i (accept i.opcode s) := by
  rw [takeInput, onCmd_of_decode_ok (decodeOfEncode i hi), exec_ready hi h]

/-! ### The peer's inputs during a byte transfer -/

/-- A rise of the clock goes to the byte transfer (R41, R127, R141). -/
theorem takeInput_clkRise_xfer {s : State} (hf : s.status.fault = false) (hclk : s.lines.clkLvl = false)
    (hcps : s.cp.cps = .xfer) : takeInput .clkRise s = .next (xferRise (withClk true s)) := by
  simp [takeInput, onClkRise, hclk, onEvent, hf, cpClkRise, hcps, withClk]

/-- A fall of the clock goes to the byte transfer (R41, R127, R141). -/
theorem takeInput_clkFall_xfer {s : State} (hf : s.status.fault = false) (hclk : s.lines.clkLvl = true)
    (hcps : s.cp.cps = .xfer) : takeInput .clkFall s = xferFall (withClk false s) := by
  simp [takeInput, onClkFall, hclk, onEvent, hf, cpClkFall, hcps, withClk]

/-- The state with another level of the peer on the data line. -/
def withDat (v : Bool) (s : State) : State := { s with lines := { s.lines with datPeer := v } }

/-- A byte transfer takes the peer's level and nothing else from `DatSet` (R41, R147). -/
theorem takeInput_datSet_xfer (v : Bool) {s : State} (hcps : s.cp.cps = .xfer) :
    takeInput (.datSet v) s = .next (withDat v s) := by
  by_cases hv : s.lines.datPeer = v
  · simp [takeInput, onDatSet, withDat, ← hv]
  · simp [takeInput, onDatSet, withDat, hv, onEvent, cpDatFall, hcps]

/-! ### A byte sent, cycle by cycle -/

/-- A CP.SENDBYTE of `v` begun in `s`, after `k` whole clock cycles, with the clock low: cycle `k + 1` has begun. The block
drives the line but in cycle 10 (R127). -/
def sending (v : Byte) (k : Nat) (s : State) : State :=
  { s with
    status := acceptedStatus 0x02 true s
    cp := { s.cp with
      cps := .xfer, op := .sendbyte, dir := .tx, cyc := BitVec.ofNat 4 (k + 1), shift := v, par := parity v, ack := false }
    lines := { s.lines with clkLvl := false, cpOe := decide (k ≤ 8), cpOut := sentBit v k } }

/-- With the clock low, CP.SENDBYTE begins cycle 1 in its accepting step (R125, R130). -/
theorem takeInput_sendbyte (v : Byte) {s : State} (h : s.Ready) (hclk : s.lines.clkLvl = false) :
    takeInput (.cmd (encode (.cpSendbyte v))) s = .next (sending v 0 s) := by
  rw [takeInput_cmd_encode rfl h, execBody, beginTx_eq]
  simp [sending, activate, accept, acceptedStatus, Instr.opcode, hclk, sentBit]

/-- Only the rise of cycle 10 takes the line's level (R127, R128). -/
theorem txRise_of_ne {s : State} (h : s.cp.cyc ≠ 10) : txRise s = s := if_neg h

/-- The fall of cycle `c` to 7 puts data bit `c` on the line (R127). -/
theorem txFall_data {c : Nat} {s : State} (hcyc : s.cp.cyc.toNat = c) (hc : c ≤ 7) :
    txFall s = .next (nextCycle { s with lines := { s.lines with cpOut := s.cp.shift.getLsbD c } }) := by
  simp [txFall, hcyc, hc]

/-- The fall of cycle 8 puts the parity bit on the line (R127). -/
theorem txFall_parity {s : State} (h : s.cp.cyc = 8) :
    txFall s = .next (nextCycle { s with lines := { s.lines with cpOut := s.cp.par } }) := by
  simp [txFall, h]

/-- The fall of cycle 9 releases the line (R127). -/
theorem txFall_release {s : State} (h : s.cp.cyc = 9) :
    txFall s = .next (nextCycle { s with lines := { s.lines with cpOe := false } }) := by
  simp [txFall, h]

/-- The rise of each of the first nine cycles changes the clock level alone (R127). -/
theorem takeInput_clkRise_sending (v : Byte) {k : Nat} {s : State} (hk : k ≤ 8) (hf : s.status.fault = false) :
    takeInput .clkRise (sending v k s) = .next (withClk true (sending v k s)) := by
  have hcyc : BitVec.ofNat 4 (k + 1) ≠ 10 := by bv_omega
  rw [takeInput_clkRise_xfer (s := sending v k s) hf rfl rfl]
  exact congrArg _ (txRise_of_ne hcyc)

/-- The fall of each of the first nine cycles puts the next bit on the line, or releases it (R127). -/
theorem takeInput_clkFall_sending (v : Byte) {k : Nat} {s : State} (hk : k ≤ 8) (hf : s.status.fault = false) :
    takeInput .clkFall (withClk true (sending v k s)) = .next (sending v (k + 1) s) := by
  rw [takeInput_clkFall_xfer (s := withClk true (sending v k s)) hf rfl rfl]
  obtain hdata | rfl | rfl : k ≤ 6 ∨ k = 7 ∨ k = 8 := by omega
  · have hcyc : (BitVec.ofNat 4 (k + 1)).toNat = k + 1 := by bv_omega
    have hlt : k < 8 := by omega
    have hnext : k + 1 < 8 := by omega
    refine (txFall_data hcyc (by omega)).trans ?_
    simp [nextCycle, sending, withClk, sentBit, BitVec.ofNat_add, hk, hlt, hnext]
  · exact txFall_parity (s := withClk false (sending v 7 s)) rfl
  · exact txFall_release (s := withClk false (sending v 8 s)) rfl

theorem runs_clockCycle_sending (v : Byte) {k : Nat} {s : State} (rest : List Input) (hk : k ≤ 8)
    (hf : s.status.fault = false) : runs (clockCycle ++ rest) (sending v k s) = runs rest (sending v (k + 1) s) :=
  (runs_cons (takeInput_clkRise_sending v hk hf)).trans (runs_cons (takeInput_clkFall_sending v hk hf))

theorem runs_clockCycles_sending (v : Byte) (n : Nat) {k : Nat} {s : State} (rest : List Input) (hn : k + n ≤ 9)
    (hf : s.status.fault = false) : runs (clockCycles n ++ rest) (sending v k s) = runs rest (sending v (k + n) s) := by
  induction n generalizing k with
  | zero => rfl
  | succ n ih =>
    rw [clockCycles, List.append_assoc, runs_clockCycle_sending v _ (by omega) hf, ih (by omega), Nat.add_right_comm,
      Nat.add_assoc]

/-- CP.SENDBYTE and the clock cycles after it (R130). -/
theorem runs_sendbyte_clockCycles (v : Byte) {n : Nat} {s : State} (rest : List Input) (hn : n ≤ 9) (h : s.Ready)
    (hclk : s.lines.clkLvl = false) :
    runs (.cmd (encode (.cpSendbyte v)) :: (clockCycles n ++ rest)) s = runs rest (sending v n s) := by
  rw [runs_cons (takeInput_sendbyte v h hclk), runs_clockCycles_sending v n rest (by omega) h.1, Nat.zero_add]

/-- Settles O39: after `k` cycles the block drives bit `k`, which the rise leaves as it is. -/
theorem peerReadsSentByte : Obligations.PeerReadsSentByte := by
  intro v k s hk hs hclk
  rw [List.cons_append, runs_sendbyte_clockCycles v _ (by omega) hs hclk, runs_cons (takeInput_clkRise_sending v hk hs.1)]
  rw [runs_nil]
  refine .of_next ⟨?_, ?_, rfl⟩ <;> simp [withClk, sending, Lines.datLine, hk]

/-- A CP.SENDBYTE in its tenth cycle, with the peer's answer on the line and taken. -/
def answered (v : Byte) (nack : Bool) (s : State) : State :=
  { withDat nack (sending v 9 s) with cp := { (sending v 9 s).cp with ack := nack } }

/-- The tenth cycle of a CP.SENDBYTE: the rise takes the peer's answer, and the fall ends the command with it (R128–R130). -/
theorem runs_lastCycle_sending (v : Byte) (nack : Bool) {s : State} (hf : s.status.fault = false) :
    runs (.datSet nack :: clockCycle) (sending v 9 s) = .next (finishCp (if nack then 2 else 0) (answered v nack s)) := by
  have hdat : takeInput (.datSet nack) (sending v 9 s) = .next (withDat nack (sending v 9 s)) := takeInput_datSet_xfer nack rfl
  have hrise : takeInput .clkRise (withDat nack (sending v 9 s)) = .next (withClk true (answered v nack s)) :=
    takeInput_clkRise_xfer (s := withDat nack (sending v 9 s)) hf rfl rfl
  have hfall : takeInput .clkFall (withClk true (answered v nack s)) =
      .next (finishCp (if nack then 2 else 0) (answered v nack s)) :=
    takeInput_clkFall_xfer (s := withClk true (answered v nack s)) hf rfl rfl
  rw [runs_cons hdat, clockCycle, runs_cons hrise, runs_cons hfall, runs_nil]

/-- Settles O40: nine cycles send the bits, and the tenth ends the command with the peer's answer. -/
theorem sendbyteRun : Obligations.SendbyteRun := by
  intro v nack s hs hclk
  rw [List.cons_append, runs_sendbyte_clockCycles v _ le_rfl hs hclk, runs_lastCycle_sending v nack hs.1]
  exact .of_next ⟨rfl, rfl, rfl, rfl, rfl, rfl, rfl⟩

end Sys2Proof.Machine
end

section
/-! PROOFS. A whole byte received on the CP link (30_encoding R110, 40_cp_link R140–R146). -/

namespace Sys2Proof.Machine

/-! ### The bits of a received byte -/

/-- A data bit shifted in at the least significant end (R141). -/
def shiftIn (v : Byte) (d : Bool) : Byte := (v <<< 1) ||| (BitVec.ofBool d).setWidth 8

/-- The bits of a byte in the order the peer sends them, most significant first (R110). -/
def msbFirst (d : Byte) : List Bool :=
  [d.getLsbD 7, d.getLsbD 6, d.getLsbD 5, d.getLsbD 4, d.getLsbD 3, d.getLsbD 2, d.getLsbD 1, d.getLsbD 0]

theorem peerByte_eq (d : Byte) (p : Bool) : peerByte d p = (msbFirst d).flatMap peerBit ++ peerBit p := rfl

/-- A byte's bits shifted in one by one are the byte. -/
theorem foldl_shiftIn_msbFirst (d : Byte) : (msbFirst d).foldl shiftIn 0 = d := by
  refine BitVec.eq_of_getLsbD_eq fun i hi => ?_
  simp only [msbFirst, List.foldl_cons, List.foldl_nil]
  interval_cases i <;> simp [shiftIn]

/-- A byte's bits counted one by one give its parity. -/
theorem foldl_xor_msbFirst (d : Byte) : (msbFirst d).foldl (· ^^ ·) false = parity d := by
  simp only [msbFirst, List.foldl_cons, List.foldl_nil, parity, Bool.false_xor, Bool.xor_assoc, Bool.xor_comm]

/-! ### A byte received, bit by bit -/

/-- The rise of a data cycle shifts the line's bit in (R141). -/
theorem rxRise_data {s : State} (h : s.cp.cyc.toNat ≤ 8) : rxRise s = rxDataBit s.lines.datLine s := if_pos h

/-- The fall of a data cycle only begins the next cycle (R141). -/
theorem rxFall_data {s : State} (h : s.cp.cyc.toNat ≤ 8) : rxFall s = .next (nextCycle s) := by
  have hne9 : s.cp.cyc ≠ 9 := by bv_omega
  have hne10 : s.cp.cyc ≠ 10 := by bv_omega
  rw [rxFall, if_neg hne9, if_neg hne10]

/-- A CP.RECVBYTE begun in `s`, after `k` data bits, with the clock low: the bits shifted in, their parity, and the peer's
level on the line (R141). -/
def receiving (k : Nat) (shift : Byte) (par dat : Bool) (s : State) : State :=
  { s with
    status := acceptedStatus 0x03 true s
    cp := { s.cp with
      cps := .xfer, op := .recvbyte, dir := .rx, cyc := BitVec.ofNat 4 (k + 1), shift := shift, par := par,
      pb := false, mis := false, ack := false }
    lines := { s.lines with clkLvl := false, datPeer := dat, cpOe := false } }

/-- With the clock low, CP.RECVBYTE begins cycle 1 in its accepting step (R125, R140). -/
theorem takeInput_recvbyte {s : State} (h : s.Ready) (hclk : s.lines.clkLvl = false) :
    takeInput (.cmd (encode .cpRecvbyte)) s = .next (receiving 0 0x00 false s.lines.datPeer s) := by
  rw [takeInput_cmd_encode rfl h, execBody, beginRx_eq]
  simp [receiving, activate, accept, acceptedStatus, Instr.opcode, hclk]

/-- The peer presents a data bit and clocks it: it is shifted in, and the next cycle begins (R141). -/
theorem runs_peerBit_receiving (d : Bool) {k : Nat} {shift : Byte} {par dat : Bool} {s : State} (rest : List Input)
    (hk : k < 8) (hf : s.status.fault = false) :
    runs (peerBit d ++ rest) (receiving k shift par dat s) =
      runs rest (receiving (k + 1) (shiftIn shift d) (par ^^ d) d s) := by
  have hcyc : (BitVec.ofNat 4 (k + 1)).toNat ≤ 8 := by bv_omega
  have hrise : takeInput .clkRise (receiving k shift par d s) =
      .next (withClk true (receiving k (shiftIn shift d) (par ^^ d) d s)) := by
    rw [takeInput_clkRise_xfer (s := receiving k shift par d s) hf rfl rfl]
    exact congrArg _ (rxRise_data hcyc)
  have hfall : takeInput .clkFall (withClk true (receiving k (shiftIn shift d) (par ^^ d) d s)) =
      .next (receiving (k + 1) (shiftIn shift d) (par ^^ d) d s) := by
    rw [takeInput_clkFall_xfer (s := withClk true (receiving k (shiftIn shift d) (par ^^ d) d s)) hf rfl rfl]
    refine (rxFall_data hcyc).trans ?_
    simp [nextCycle, receiving, withClk, BitVec.ofNat_add]
  exact (runs_cons (takeInput_datSet_xfer d rfl)).trans ((runs_cons hrise).trans (runs_cons hfall))

theorem runs_peerBits_receiving (bits : List Bool) {k : Nat} {shift : Byte} {par dat : Bool} {s : State}
    (rest : List Input) (hk : k + bits.length ≤ 8) (hf : s.status.fault = false) :
    runs (bits.flatMap peerBit ++ rest) (receiving k shift par dat s) =
      runs rest (receiving (k + bits.length) (bits.foldl shiftIn shift) (bits.foldl (· ^^ ·) par) (bits.getLastD dat) s) := by
  induction bits generalizing k shift par dat with
  | nil => rfl
  | cons d bits ih =>
    rw [List.length_cons] at hk
    rw [List.flatMap_cons, List.append_assoc, runs_peerBit_receiving d _ (by omega) hf, ih (by omega), List.length_cons,
      List.foldl_cons, List.foldl_cons, List.getLastD_cons, Nat.add_right_comm, Nat.add_assoc]

/-- A CP.RECVBYTE begun in `s` in cycle 10, with the clock low: the block drives the answer to the byte `d` and the parity
bit `p` (R141, R142). -/
def answering (d : Byte) (p : Bool) (s : State) : State :=
  { receiving 9 d (parity d) p s with
    status := { acceptedStatus 0x03 true s with parityErr := s.status.parityErr || (p != parity d) }
    cp := { (receiving 9 d (parity d) p s).cp with pb := p, mis := p != parity d }
    lines := { s.lines with clkLvl := false, datPeer := p, cpOe := true, cpOut := p != parity d } }

/-- The parity bit is compared at the rise of cycle 9, and answered from its fall on (R141, R142). -/
theorem runs_parityBit_receiving (d : Byte) (p : Bool) {dat : Bool} {s : State} (rest : List Input)
    (hf : s.status.fault = false) :
    runs (peerBit p ++ rest) (receiving 8 d (parity d) dat s) = runs rest (answering d p s) := by
  have hrise : takeInput .clkRise (receiving 8 d (parity d) p s) =
      .next (withClk true (rxParityBit p (receiving 8 d (parity d) p s))) :=
    takeInput_clkRise_xfer (s := receiving 8 d (parity d) p s) hf rfl rfl
  have hfall : takeInput .clkFall (withClk true (rxParityBit p (receiving 8 d (parity d) p s))) = .next (answering d p s) :=
    takeInput_clkFall_xfer (s := withClk true (rxParityBit p (receiving 8 d (parity d) p s))) hf rfl rfl
  exact (runs_cons (takeInput_datSet_xfer p rfl)).trans ((runs_cons hrise).trans (runs_cons hfall))

/-- CP.RECVBYTE and the peer's byte and parity bit (R140, R141). -/
theorem runs_recvbyte_peerByte (d : Byte) (p : Bool) {s : State} (rest : List Input) (h : s.Ready)
    (hclk : s.lines.clkLvl = false) :
    runs (.cmd (encode .cpRecvbyte) :: (peerByte d p ++ rest)) s = runs rest (answering d p s) := by
  rw [runs_cons (takeInput_recvbyte h hclk), peerByte_eq, List.append_assoc,
    runs_peerBits_receiving (msbFirst d) _ (by simp [msbFirst]) h.1, foldl_shiftIn_msbFirst, foldl_xor_msbFirst]
  exact runs_parityBit_receiving d p rest h.1

/-- A received byte `d` stored, with the clock low and the line released (R145). -/
def appended (d : Byte) (p : Bool) (s : State) : State :=
  { answering d p s with
    lines := { (answering d p s).lines with cpOe := false }
    rxBuf := s.rxBuf.set s.rxIdx.toNat d
    rxIdx := s.rxIdx + 1 }

/-- With room in the buffer, the fall of cycle 10 stores the byte and ends the command with 0 (R145, R146). -/
theorem runs_lastCycle_answering (d : Byte) (p : Bool) {s : State} (hf : s.status.fault = false)
    (hroom : s.rxIdx.toNat < 64) : runs clockCycle (answering d p s) = .next (finishCp 0 (appended d p s)) := by
  have hrise : takeInput .clkRise (answering d p s) = .next (withClk true (answering d p s)) :=
    takeInput_clkRise_xfer (s := answering d p s) hf rfl rfl
  have hfall : takeInput .clkFall (withClk true (answering d p s)) = .next (finishCp 0 (appended d p s)) :=
    (takeInput_clkFall_xfer (s := withClk true (answering d p s)) hf rfl rfl).trans (appendByte_room hroom)
  rw [clockCycle, runs_cons hrise, runs_cons hfall, runs_nil]

/-- Settles O41: the bits shifted in are the byte and their parity its parity; the tenth cycle stores the byte. -/
theorem recvbyteRun : Obligations.RecvbyteRun := by
  intro d p s hs hclk hroom hbuf
  obtain ⟨hrx, -⟩ := hbuf
  constructor
  · have hrun := runs_recvbyte_peerByte d p [] hs hclk
    rw [List.append_nil] at hrun
    rw [hrun, runs_nil]
    exact .of_next ⟨rfl, rfl⟩
  · rw [List.cons_append, runs_recvbyte_peerByte d p _ hs hclk, runs_lastCycle_answering d p hs.1 hroom]
    have hidx : (s.rxIdx + 1).toNat = s.rxIdx.toNat + 1 := by bv_omega
    have hget (i : Nat) : (s.rxBuf.set s.rxIdx.toNat d).get i = if i = s.rxIdx.toNat then d else s.rxBuf.get i := by
      rw [Memory.get_set_of_sorted hrx.1]
      simp only [eq_comm]
    exact .of_next ⟨rfl, hidx, rfl, rfl, rfl, hget⟩

end Sys2Proof.Machine
end

section
/-! PROOFS. A whole character received on the selected sensor channel (30_encoding R114, 42_stm R218, R222, R226). -/

namespace Sys2Proof.Machine

/-! ### The bits of a character -/

/-- The bits `bits` written into a byte from bit `i` on, in order (R222). -/
def placeBits (v : Byte) (i : Nat) : List Bool → Byte
  | [] => v
  | b :: bits => placeBits (setBit v i b) (i + 1) bits

/-- The bits of a byte in the order a sensor sends them, least significant first (R114). -/
def lsbFirst (b : Byte) : List Bool :=
  [b.getLsbD 0, b.getLsbD 1, b.getLsbD 2, b.getLsbD 3, b.getLsbD 4, b.getLsbD 5, b.getLsbD 6, b.getLsbD 7]

theorem sensorChar_eq (ch : Channel) (b : Byte) :
    sensorChar ch b = .rxSet ch false :: ((lsbFirst b).flatMap (sensorBit ch) ++ sensorBit ch true) := rfl

/-- A bit written is read back, and every other bit is as before. -/
theorem getLsbD_setBit (v : Byte) {i : Nat} (b : Bool) {j : Nat} (hj : j < 8) :
    (setBit v i b).getLsbD j = if j = i then b else v.getLsbD j := by
  have hset : setBit v i b = if b then v ||| BitVec.twoPow 8 i else v &&& ~~~BitVec.twoPow 8 i := rfl
  rw [hset]
  by_cases hji : j = i
  · subst hji
    cases b <;> simp [hj]
  · cases b <;> simp [hj, hji]

/-- A byte's bits written in order are the byte. -/
theorem placeBits_lsbFirst (b : Byte) : placeBits 0 0 (lsbFirst b) = b := by
  refine BitVec.eq_of_getLsbD_eq fun j hj => ?_
  simp only [lsbFirst, placeBits, getLsbD_setBit _ _ hj]
  interval_cases j <;> rfl

/-! ### A character received, bit by bit -/

/-- A character begun in `s` on the selected channel, after `k` data bits: the bits so far and the line's level (R218, R222). -/
def sampling (k : Nat) (shift : Byte) (level : Bool) (s : State) : State :=
  { s with
    lines := { s.lines with rxLvl := s.lines.rxLvl.set s.stm.ch level }
    stm := { s.stm with sts := .sampling, edgeEn := false, k := BitVec.ofNat 4 (9 - k), shift := shift } }

/-- The falling edge of the start bit begins a character (R218). -/
theorem takeInput_startBit {s : State} (hf : s.status.fault = false) (hsts : s.stm.sts = .armed) (hedge : s.stm.edgeEn = true)
    (hlvl : s.lines.rxLvl.get s.stm.ch = true) :
    takeInput (.rxSet s.stm.ch false) s = .next (sampling 0 0x00 false s) := by
  simp [takeInput, onRxSet, hlvl, onEvent, hf, stmRxFall, hsts, hedge, sampling]

/-- A sensor's level during a character is its level and nothing else (R41, R211). -/
theorem takeInput_rxSet_sampling (b : Bool) {k : Nat} {shift : Byte} {level : Bool} {s : State} :
    takeInput (.rxSet s.stm.ch b) (sampling k shift level s) = .next (sampling k shift b s) := by
  by_cases hb : level = b
  · simp [takeInput, onRxSet, sampling, hb]
  · simp [takeInput, onRxSet, sampling, hb, onEvent, stmRxFall]

/-- The tick of a data bit writes the line's level into it (R222). -/
theorem takeInput_bitTick_sampling {k : Nat} {shift : Byte} {level : Bool} {s : State} (hk : k < 8)
    (hf : s.status.fault = false) :
    takeInput .bitTick (sampling k shift level s) = .next (sampling (k + 1) (setBit shift k level) level s) := by
  have hbits : (BitVec.ofNat 4 (9 - k)).toNat = 9 - k := by bv_omega
  have hdata : 2 ≤ (BitVec.ofNat 4 (9 - k)).toNat := by omega
  have hbit : 9 - (9 - k) = k := by omega
  have hnext : BitVec.ofNat 4 (9 - k) - 1 = BitVec.ofNat 4 (9 - (k + 1)) := by bv_omega
  refine (onEvent_live (s := sampling k shift level s) hf).trans ((if_pos hdata).trans ?_)
  simp only [stmDataBit, sampling, PerChannel.get_set_self, hbits, hbit, hnext]

theorem runs_sensorBits_sampling (bits : List Bool) {k : Nat} {shift : Byte} {level : Bool} {s : State}
    (rest : List Input) (hk : k + bits.length ≤ 8) (hf : s.status.fault = false) :
    runs (bits.flatMap (sensorBit s.stm.ch) ++ rest) (sampling k shift level s) =
      runs rest (sampling (k + bits.length) (placeBits shift k bits) (bits.getLastD level) s) := by
  induction bits generalizing k shift level with
  | nil => rfl
  | cons b bits ih =>
    rw [List.length_cons] at hk
    rw [List.flatMap_cons, List.append_assoc, sensorBit, List.cons_append, runs_cons (takeInput_rxSet_sampling b),
      List.cons_append, runs_cons (takeInput_bitTick_sampling (by omega) hf), List.nil_append, ih (by omega),
      List.length_cons, placeBits, List.getLastD_cons, Nat.add_right_comm, Nat.add_assoc]

/-- The character `b` stored at the ring's index, with the engine armed for the next one (R222, R226). -/
def characterStored (b : Byte) (s : State) : State :=
  { s with
    lines := { s.lines with rxLvl := s.lines.rxLvl.set s.stm.ch true }
    stm := { s.stm with sts := .armed, edgeEn := true, k := 9, shift := b, lastv := true, lastb := b }
    stmBuf := s.stmBuf.set s.stmIdx.toNat b
    stmIdx := if s.stmIdx.toNat + 1 = 20 then 0 else s.stmIdx + 1 }

/-- The stop bit's tick stores the character (R222, R226). -/
theorem runs_stopBit_sampling (b : Byte) {level : Bool} {s : State} (hf : s.status.fault = false)
    (hidx : s.stmIdx.toNat < 20) :
    runs (sensorBit s.stm.ch true) (sampling 8 b level s) = .next (characterStored b s) := by
  have htick : takeInput .bitTick (sampling 8 b true s) = .next (characterStored b s) :=
    (onEvent_live (s := sampling 8 b true s) hf).trans (storeByte_of_lt (s := rearm (sampling 8 b true s)) hidx)
  rw [sensorBit, runs_cons (takeInput_rxSet_sampling true), runs_cons htick, runs_nil]

/-- A whole character leaves its byte stored and the engine armed. -/
theorem runs_sensorChar (b : Byte) {s : State} (hf : s.status.fault = false) (hsts : s.stm.sts = .armed)
    (hedge : s.stm.edgeEn = true) (hlvl : s.lines.rxLvl.get s.stm.ch = true) (hidx : s.stmIdx.toNat < 20) :
    runs (sensorChar s.stm.ch b) s = .next (characterStored b s) := by
  rw [sensorChar_eq, runs_cons (takeInput_startBit hf hsts hedge hlvl),
    runs_sensorBits_sampling (lsbFirst b) _ (by simp [lsbFirst]) hf, placeBits_lsbFirst]
  exact runs_stopBit_sampling b hf hidx

/-- The ring's index after a character (R226). -/
theorem nextStmIdx_toNat {n : BitVec 5} (h : n.toNat < 20) :
    (if n.toNat + 1 = 20 then 0 else n + 1).toNat = (n.toNat + 1) % 20 := by
  split_ifs with hend
  · rw [hend]; rfl
  · bv_omega

/-- Settles O46: the bits written in order are the byte, and the stop bit's tick stores it. -/
theorem characterReceived : Obligations.CharacterReceived := by
  rintro b s hf hsts hedge hlvl hidx ⟨-, -, -, hring⟩
  rw [runs_sensorChar b hf hsts hedge hlvl hidx]
  exact .of_next ⟨Memory.get_set_self hring _ b, fun i hi => Memory.get_set_ne hring b hi, nextStmIdx_toNat hidx,
    rfl, rfl, rfl, rfl, rfl⟩

end Sys2Proof.Machine
end

section
/-! PROOFS. The commands of the CP link on acceptance, and the events that an engine drops (40_cp_link R120, R125–R130,
R140, R147, 60_exceptions R301, R307). -/

namespace Sys2Proof.Machine

/-! ### Acceptance -/

/-- Settles O11: the body's two writes on the accepted state. -/
theorem waitstartAccepted : Obligations.WaitstartAccepted := by
  intro s hs
  rw [exec_ready rfl hs]
  rfl

/-- Settles O12: a send begins in the accepted state, aligned to the clock by `beginTx_eq`. -/
theorem sendbyteAccepted : Obligations.SendbyteAccepted := by
  intro v s hs
  rw [exec_ready rfl hs, execBody, beginTx_eq]
  rfl

/-- Settles O13: both commands begin a receive in the accepted state, aligned to the clock by `beginRx_eq`. -/
theorem receivesAccepted : Obligations.ReceivesAccepted := by
  intro s hs
  constructor
  · rw [exec_ready rfl hs, execBody, beginRx_eq]
    rfl
  · rw [exec_ready rfl hs, execBody, startWaitmsg, beginRx_eq]
    rfl

/-! ### What the CP engine drops, by its state -/

theorem cpClkRise_of_ne_xfer {s : State} (h : s.cp.cps ≠ .xfer) : cpClkRise s = .next s := by
  unfold cpClkRise
  split
  · exact absurd ‹_› h
  all_goals rfl

theorem cpDatFall_of_ne_ws1 {s : State} (h : s.cp.cps ≠ .ws1) : cpDatFall s = .next s := by
  unfold cpDatFall
  split
  · exact absurd ‹_› h
  all_goals rfl

/-- With the clock low a data fall is no start condition (R112, R120). -/
theorem cpDatFall_of_low {s : State} (h : s.lines.clkLvl = false) : cpDatFall s = .next s := by
  unfold cpDatFall
  split
  · simp [h]
  all_goals rfl

theorem cpWake_of_ne_ws1 {s : State} (h : s.cp.cps ≠ .ws1) : cpWake s = .next s := by
  unfold cpWake
  split
  · exact absurd ‹_› h
  all_goals rfl

/-! ### An event dropped leaves the line bookkeeping alone -/

/-- A dropped event changes nothing, whether or not the block is in a fault (R307, R313). -/
theorem onEvent_dropped {act : State → Result} {s : State} (h : act s = .next s) : onEvent act s = .next s := by
  unfold onEvent
  split_ifs
  · rfl
  · exact h

theorem bookkept_clkRise_of_high {s : State} (h : s.lines.clkLvl = true) : bookkept .clkRise s = s := by
  simp [bookkept, clkAfter, datAfter, rxAfter, ← h]

theorem bookkept_clkFall_of_low {s : State} (h : s.lines.clkLvl = false) : bookkept .clkFall s = s := by
  simp [bookkept, clkAfter, datAfter, rxAfter, ← h]

theorem bookkept_datSet_of_eq {s : State} {v : Bool} (h : s.lines.datPeer = v) : bookkept (.datSet v) s = s := by
  simp [bookkept, clkAfter, datAfter, rxAfter, ← h]

theorem bookkept_rxSet_of_eq {s : State} {ch : Channel} {v : Bool} (h : s.lines.rxLvl.get ch = v) :
    bookkept (.rxSet ch v) s = s := by
  simp [bookkept, clkAfter, datAfter, rxAfter, ← h]

theorem takeInput_clkRise_of_ne_xfer {s : State} (h : s.cp.cps ≠ .xfer) :
    takeInput .clkRise s = .next (bookkept .clkRise s) := by
  rw [takeInput, onClkRise]
  split_ifs with hclk
  · rw [bookkept_clkRise_of_high hclk]
  · exact onEvent_dropped (s := bookkept .clkRise s) (cpClkRise_of_ne_xfer h)

/-- A clock fall with the clock low is no edge (R41). -/
theorem takeInput_clkFall_of_low {s : State} (h : s.lines.clkLvl = false) :
    takeInput .clkFall s = .next (bookkept .clkFall s) := by
  simp [takeInput, onClkFall, bookkept_clkFall_of_low, h]

/-- A change of the peer's data level that begins no start condition (R112, R120). -/
theorem takeInput_datSet_dropped {v : Bool} {s : State}
    (h : v = false → s.lines.datPeer = true → cpDatFall (bookkept (.datSet v) s) = .next (bookkept (.datSet v) s)) :
    takeInput (.datSet v) s = .next (bookkept (.datSet v) s) := by
  simp only [takeInput, onDatSet]
  split_ifs with hdat hv
  · rw [bookkept_datSet_of_eq hdat]
  · rfl
  · exact onEvent_dropped (h (by simpa using hv) (by simpa [hv] using hdat))

theorem takeInput_wake_of_ne_ws1 {s : State} (h : s.cp.cps ≠ .ws1) : takeInput .wake s = .next s :=
  onEvent_dropped (cpWake_of_ne_ws1 h)

/-- With the STM engine idle, its inputs change a sensor's level at most (R147, R307). -/
theorem takeInput_stm_of_idle {i : Input} {s : State} (hi : isStmInput i = true) (h : s.stm.sts = .idle) :
    takeInput i s = .next (bookkept i s) := by
  cases i with
  | rxSet ch v =>
    simp only [takeInput, onRxSet]
    split_ifs with hlvl hv
    · rw [bookkept_rxSet_of_eq hlvl]
    · rfl
    · exact onEvent_dropped (s := bookkept (.rxSet ch v) s) (by simp [stmRxFall, bookkept, h])
  | delayDone => exact onEvent_dropped (by simp [stmDelayDone, h])
  | bitTick => exact onEvent_dropped (by simp [stmBitTick, h])
  | rollover => exact onEvent_dropped (by simp [stmRollover, h])
  | cmd | clkRise | clkFall | datSet | wake | reset => cases hi

/-! ### The two waits of CP.WAITSTART -/

/-- A real clock fall, with no fault, goes to the CP engine (R41, R307). -/
theorem takeInput_clkFall_live {s : State} (hf : s.status.fault = false) (hclk : s.lines.clkLvl = true) :
    takeInput .clkFall s = cpClkFall (withClk false s) := by
  rw [takeInput, onClkFall, if_pos hclk]
  exact onEvent_live hf

/-- Before the start condition every event is dropped but `Wake` and the data fall with the clock high (R120). -/
theorem takeInput_ws1_dropped {i : Input} {s : State} (hstm : s.stm.sts = .idle) (hcps : s.cp.cps = .ws1)
    (hi : isEvent i = true) (hwake : i ≠ .wake)
    (hstart : ¬(i = .datSet false ∧ s.lines.datPeer = true ∧ s.lines.clkLvl = true)) :
    takeInput i s = .next (bookkept i s) := by
  cases i with
  | clkRise => exact takeInput_clkRise_of_ne_xfer (by simp [hcps])
  | clkFall =>
    cases hclk : s.lines.clkLvl with
    | false => exact takeInput_clkFall_of_low hclk
    | true =>
      rw [takeInput, onClkFall, if_pos hclk]
      exact onEvent_dropped (s := bookkept .clkFall s) (by simp [cpClkFall, bookkept, hcps])
  | datSet v =>
    refine takeInput_datSet_dropped fun hv hdat => cpDatFall_of_low ?_
    have hclk : s.lines.clkLvl ≠ true := fun hclk => hstart ⟨by rw [hv], hdat, hclk⟩
    simpa [bookkept, clkAfter] using hclk
  | wake => exact absurd rfl hwake
  | rxSet | delayDone | bitTick | rollover => exact takeInput_stm_of_idle rfl hstm
  | cmd | reset => cases hi

/-- After the start condition every event is dropped but the clock fall (R120). -/
theorem takeInput_ws2_dropped {i : Input} {s : State} (hstm : s.stm.sts = .idle) (hcps : s.cp.cps = .ws2)
    (hi : isEvent i = true) (hfall : ¬(i = .clkFall ∧ s.lines.clkLvl = true)) :
    takeInput i s = .next (bookkept i s) := by
  cases i with
  | clkRise => exact takeInput_clkRise_of_ne_xfer (by simp [hcps])
  | clkFall => exact takeInput_clkFall_of_low (by simpa using hfall)
  | datSet v => exact takeInput_datSet_dropped fun _ _ => cpDatFall_of_ne_ws1 (by simp [bookkept, hcps])
  | wake => exact takeInput_wake_of_ne_ws1 (by simp [hcps])
  | rxSet | delayDone | bitTick | rollover => exact takeInput_stm_of_idle rfl hstm
  | cmd | reset => cases hi

/-- Settles O30: in each wait the engine's own match names the inputs it consumes; the others are dropped, one by one. -/
theorem waitstartInputs : Obligations.WaitstartInputs := by
  intro s hf hstm
  constructor
  · intro hcps hoe
    refine ⟨?_, fun hdat hclk => ?_, fun i hi hwake hstart => takeInput_ws1_dropped hstm hcps hi hwake hstart⟩
    · rw [takeInput, onEvent_live hf, cpWake, hcps]
      rfl
    · simp [takeInput, onDatSet, hdat, onEvent, hf, cpDatFall, hcps, hclk, hoe]
  · intro hcps
    refine ⟨fun hclk => ?_, fun i hi hfall => takeInput_ws2_dropped hstm hcps hi hfall⟩
    simp only [takeInput_clkFall_live hf hclk, cpClkFall, withClk, hcps]
    rfl

/-! ### Waiting for the clock -/

/-- Settles O31: the fall goes to `startCycle1`, by the transfer's direction; a rise with the clock high is no edge. -/
theorem syncWaitsForFall : Obligations.SyncWaitsForFall := by
  intro s hf hcps hclk
  refine ⟨?_, if_pos hclk, takeInput_wake_of_ne_ws1 (by simp [hcps]), fun v => ?_⟩
  · simp only [takeInput_clkFall_live hf hclk, cpClkFall, withClk, hcps]
    cases hdir : s.cp.dir <;> simp [startCycle1, hdir]
  · exact takeInput_datSet_dropped fun _ _ => cpDatFall_of_ne_ws1 (by simp [bookkept, hcps])

end Sys2Proof.Machine
end

section
/-! PROOFS. The clock edges of one byte transfer on the CP link, cycle by cycle (40_cp_link R127–R130, R140–R146,
60_exceptions R312). -/

namespace Sys2Proof.Machine

/-! ### A transmit -/

theorem takeInput_clkRise_tx {s : State} (hf : s.status.fault = false) (hclk : s.lines.clkLvl = false)
    (hcps : s.cp.cps = .xfer) (hdir : s.cp.dir = .tx) : takeInput .clkRise s = .next (txRise (withClk true s)) := by
  simp [takeInput_clkRise_xfer hf hclk hcps, xferRise, withClk, hdir]

theorem takeInput_clkFall_tx {s : State} (hf : s.status.fault = false) (hclk : s.lines.clkLvl = true)
    (hcps : s.cp.cps = .xfer) (hdir : s.cp.dir = .tx) : takeInput .clkFall s = txFall (withClk false s) := by
  simp [takeInput_clkFall_xfer hf hclk hcps, xferFall, withClk, hdir]

/-- A rise in a transmit as one record: the acknowledgment alone, in cycle 10 (R127, R128). -/
theorem txRise_eq (s : State) :
    txRise s = { s with cp := { s.cp with ack := if s.cp.cyc = 10 then s.lines.datLine else s.cp.ack } } := by
  unfold txRise
  split_ifs <;> rfl

/-- The fall of cycle 10 ends the byte sent (R127, R129). -/
theorem takeInput_clkFall_tx_last {s : State} (hf : s.status.fault = false) (hclk : s.lines.clkLvl = true)
    (hcps : s.cp.cps = .xfer) (hdir : s.cp.dir = .tx) (hcyc : s.cp.cyc = 10) :
    takeInput .clkFall s = byteDoneTx (withClk false s) := by
  simp [takeInput_clkFall_tx hf hclk hcps hdir, txFall, withClk, hcyc]

/-- Settles O32: the falls of cycles 1 to 7, 8 and 9 are `txFall_data`, `txFall_parity` and `txFall_release`. -/
theorem transmitCycles : Obligations.TransmitCycles := by
  intro s hf hcps hdir
  refine ⟨fun hclk => ?_, fun hclk hcyc => ?_, fun hclk hcyc => ?_, fun hclk hcyc => ?_⟩
  · rw [takeInput_clkRise_tx hf hclk hcps hdir, txRise_eq]
    rfl
  · exact (takeInput_clkFall_tx hf hclk hcps hdir).trans (txFall_data rfl hcyc)
  · exact (takeInput_clkFall_tx hf hclk hcps hdir).trans (txFall_parity hcyc)
  · exact (takeInput_clkFall_tx hf hclk hcps hdir).trans (txFall_release hcyc)

/-- Settles O33: the fall of cycle 10 ends the command with the code of the acknowledgment. -/
theorem sendbyteEnds : Obligations.SendbyteEnds := by
  intro s hf hcps hdir hcyc hop hclk
  rw [takeInput_clkFall_tx_last hf hclk hcps hdir hcyc]
  cases hack : s.cp.ack <;> simp [byteDoneTx, sendbyteDone, finishCp, finish, withClk, hop, hack]

/-! ### A receive -/

theorem takeInput_clkRise_rx {s : State} (hf : s.status.fault = false) (hclk : s.lines.clkLvl = false)
    (hcps : s.cp.cps = .xfer) (hdir : s.cp.dir = .rx) : takeInput .clkRise s = .next (rxRise (withClk true s)) := by
  simp [takeInput_clkRise_xfer hf hclk hcps, xferRise, withClk, hdir]

theorem takeInput_clkFall_rx {s : State} (hf : s.status.fault = false) (hclk : s.lines.clkLvl = true)
    (hcps : s.cp.cps = .xfer) (hdir : s.cp.dir = .rx) : takeInput .clkFall s = rxFall (withClk false s) := by
  simp [takeInput_clkFall_xfer hf hclk hcps, xferFall, withClk, hdir]

/-- Shifting a bit in doubles the byte and adds the bit, the top bit lost (R141). -/
theorem shiftIn_eq_ofNat (v : Byte) (d : Bool) : shiftIn v d = BitVec.ofNat 8 (2 * v.toNat + d.toNat) := by
  have hshift : shiftIn v d = v.shiftConcat d := by
    refine BitVec.eq_of_getLsbD_eq fun i hi => ?_
    cases i <;> simp [shiftIn, hi]
  refine hshift.trans (BitVec.eq_of_toNat_eq ?_)
  rw [BitVec.toNat_shiftConcat, BitVec.toNat_ofNat, Nat.shiftLeft_eq, pow_one, Nat.mul_comm]

/-- The rise of cycle 9 takes the parity bit (R141, R142). -/
theorem rxRise_parity {s : State} (h : s.cp.cyc = 9) : rxRise s = rxParityBit s.lines.datLine s := by
  simp [rxRise, h]

/-- The rise of cycle 10 does nothing (R141). -/
theorem rxRise_last {s : State} (h : s.cp.cyc = 10) : rxRise s = s := by
  simp [rxRise, h]

/-- The fall of cycle 9 drives the answer (R141). -/
theorem rxFall_answer {s : State} (h : s.cp.cyc = 9) :
    rxFall s = .next (nextCycle { s with lines := { s.lines with cpOe := true, cpOut := s.cp.mis } }) := if_pos h

/-- The fall of cycle 10 releases the line and appends the byte received (R141, R145). -/
theorem takeInput_clkFall_rx_last {s : State} (hf : s.status.fault = false) (hclk : s.lines.clkLvl = true)
    (hcps : s.cp.cps = .xfer) (hdir : s.cp.dir = .rx) (hcyc : s.cp.cyc = 10) :
    takeInput .clkFall s =
      appendByte s.cp.shift { s with lines := { s.lines with clkLvl := false, cpOe := false } } byteDoneRx := by
  simp [takeInput_clkFall_rx hf hclk hcps hdir, rxFall, withClk, hcyc]

/-- A byte received ends a CP.RECVBYTE with 0 (R146). -/
theorem byteDoneRx_recvbyte {s : State} (h : s.cp.op = .recvbyte) : byteDoneRx s = .next (finishCp 0 s) := by
  rw [byteDoneRx, h]

/-- Settles O35: the edges of cycles 1 to 8, 9 and 10 by the lemmas above; shifting a bit in doubles the byte. -/
theorem receiveCycles : Obligations.ReceiveCycles := by
  intro s hf hcps hdir
  refine ⟨fun hclk hcyc => ?_, fun hclk hcyc => ?_, fun hclk hcyc => ?_, fun hclk hcyc => ?_, fun hclk hcyc => ?_⟩
  · rw [takeInput_clkRise_rx hf hclk hcps hdir, ← shiftIn_eq_ofNat]
    exact congrArg _ (rxRise_data hcyc)
  · exact (takeInput_clkRise_rx hf hclk hcps hdir).trans (congrArg _ (rxRise_parity hcyc))
  · exact (takeInput_clkRise_rx hf hclk hcps hdir).trans (congrArg _ (rxRise_last hcyc))
  · exact (takeInput_clkFall_rx hf hclk hcps hdir).trans (rxFall_data hcyc)
  · exact (takeInput_clkFall_rx hf hclk hcps hdir).trans (rxFall_answer hcyc)

/-- Settles O36: with room the byte goes to the old `RX_IDX`, and CP.RECVBYTE ends with 0. -/
theorem recvbyteAppends : Obligations.RecvbyteAppends := by
  intro s hf hcps hdir hcyc hop hclk hroom hbuf
  obtain ⟨⟨hsorted, -⟩, -⟩ := hbuf
  have hidx : (s.rxIdx + 1).toNat = s.rxIdx.toNat + 1 := by bv_omega
  have hget (i : Nat) :
      (s.rxBuf.set s.rxIdx.toNat s.cp.shift).get i = if i = s.rxIdx.toNat then s.cp.shift else s.rxBuf.get i := by
    rw [Memory.get_set_of_sorted hsorted]
    simp only [eq_comm]
  have hstep := (takeInput_clkFall_rx_last hf hclk hcps hdir hcyc).trans (appendByte_room hroom)
  exact ⟨_, hstep.trans (byteDoneRx_recvbyte hop), rfl, hidx, hget⟩

/-- Settles O37: with the buffer full the append is the overrun fault, from the state with the line released. -/
theorem overrunFaults : Obligations.OverrunFaults := by
  intro s hf hcps hdir hcyc hclk hfull
  exact (takeInput_clkFall_rx_last hf hclk hcps hdir hcyc).trans (appendByte_full hfull)

end Sys2Proof.Machine
end

section
/-! PROOFS. The framer's commands that end in their accepting step, and CP.SENDMSG on acceptance: the CRC's round trip,
the extraction of a received frame (30_encoding R105, 41_framer R172–R175, R185, R190, R195). -/

namespace Sys2Proof.Machine

/-! ### The CRC of a frame in a buffer -/

/-- The bytes of a frame after `crc_send`: those the CRC covers, then the CRC (R173, R174). -/
theorem crcSend_slice {P : Params} {m : Memory} (h : m.wf 64) {len : Nat} (h2 : 2 ≤ len) (hl : len ≤ 64) :
    (crcSend P m len).slice 0 len = m.slice 0 (len - 2) ++ le16 (P.crc16Tx (m.slice 0 (len - 2))) := by
  refine List.ext_getElem (by simp [le16]; omega) fun i hi _ => ?_
  rw [Memory.slice_length] at hi
  rw [Memory.slice_getElem, Nat.zero_add, crcSend_get h h2 hl]
  obtain hbody | rfl | rfl : i < len - 2 ∨ i = len - 2 ∨ i = len - 1 := by omega
  · rw [if_neg (by omega), if_neg (by omega), List.getElem_append_left (by simpa using hbody), Memory.slice_getElem,
      Nat.zero_add]
  · rw [if_pos rfl, List.getElem_append_right (by simp)]
    simp [le16]
  · have hlast : len - 1 - (len - 2) = 1 := by omega
    rw [if_neg (by omega), if_pos rfl, List.getElem_append_right (by simp; omega)]
    simp [le16, hlast]

/-- R175 on a buffer: `crc_recv` accepts what `crc_send` leaves. -/
theorem crcRecv_crcSend {P : Params} {m : Memory} (h : m.wf 64) {len : Nat} (hmin : 6 ≤ len) (hmax : len ≤ 64) :
    crcRecv P (crcSend P m len) len = true := by
  rw [crcRecv, crcSend_slice h (by omega) hmax]
  exact P.round_trip _ (by rw [Memory.slice_length]; omega) (by rw [Memory.slice_length]; omega)

theorem exec_crcRun_send {len : Byte} {s : State} (hlen : legalLen len = true) (hs : s.Ready) :
    exec (.crcRun .send len) s =
      .next { s with
        result := 1, status := acceptedStatus 0x07 false s, txBuf := crcSend params s.txBuf len.toNat } := by
  rw [exec_ready (i := .crcRun .send len) hlen hs]
  rfl

/-- Settles O19: mode 1 on the accepted state. -/
theorem crcRecvReports : Obligations.CrcRecvReports := by
  intro len s hlen hs
  rw [exec_ready (i := .crcRun .recv len) hlen hs]
  rfl

/-- Settles O18: the bytes of `TX_BUF` by `crcSend_get`. -/
theorem crcSendWrites : Obligations.CrcSendWrites := by
  rintro len s hlen hs ⟨-, htx, -⟩ n h
  obtain ⟨hmin, hmax⟩ := (legalLen_iff len).mp hlen
  have hget : ∀ i, (crcSend params s.txBuf n).get i =
      if i = n - 2 then h.extractLsb' 0 8 else if i = n - 1 then h.extractLsb' 8 8 else s.txBuf.get i :=
    crcSend_get htx (by omega) hmax
  have hlast : n - 1 ≠ n - 2 := by omega
  refine ⟨_, exec_crcRun_send hlen hs, rfl, ?_, ?_, fun i hi hi' => ?_⟩
  · exact (hget _).trans (if_pos rfl)
  · rw [hget, if_neg hlast, if_pos rfl]
  · rw [hget, if_neg hi, if_neg hi']

/-- Settles O20: the law R175 on the bytes CRC.RUN send leaves. -/
theorem crcSendThenReceive : Obligations.CrcSendThenReceive := by
  rintro len s hlen hs ⟨-, htx, -⟩
  obtain ⟨hmin, hmax⟩ := (legalLen_iff len).mp hlen
  refine ⟨_, exec_crcRun_send hlen hs, fun u hu hrx => ⟨_, crcRecvReports len u hlen hu, ?_⟩⟩
  have hok : params.crcRxOk (u.rxBuf.slice 0 len.toNat) = true := by
    rw [hrx]
    exact crcRecv_crcSend htx hmin hmax
  exact if_pos hok

/-- Settles O14: the send of byte 0 begins in the accepted state, aligned to the clock by `beginTx_eq`. -/
theorem sendmsgAccepted : Obligations.SendmsgAccepted := by
  intro len s hlen hs tx
  have hfirst : (0 : BitVec 7).toNat < 64 := by decide
  rw [exec_ready (i := .cpSendmsg len) hlen hs, execBody, startSendmsg, sendCurrent_of_lt hfirst, beginTx_eq]
  rfl

/-! ### CP.GRABMSG -/

/-- CP.GRABMSG's checks all pass (R190). -/
theorem grabCode_eq_zero_iff (s : State) :
    grabCode s = 0 ↔
      4 ≤ s.rxIdx.toNat ∧ (s.rxBuf.get 1).toNat ≤ 64 ∧ (s.rxBuf.get 1).toNat ≤ s.rxIdx.toNat ∧
        6 ≤ (s.rxBuf.get 1).toNat ∧ params.crcRxOk (s.rxBuf.slice 0 (s.rxBuf.get 1).toNat) = true := by
  simp only [grabCode]
  split_ifs with hhdr hcap hin hmin hcrc
  case pos | pos | pos | pos => exact iff_of_false (by decide) (by omega)
  case pos => exact iff_of_false (by decide) fun ⟨_, _, _, _, hok⟩ => by simp [hcrc] at hok
  case neg => exact iff_of_true rfl ⟨by omega, by omega, by omega, by omega, by simpa using hcrc⟩

/-- What CP.GRABMSG leaves when its checks pass: the frame's bytes copied and `RX_IDX` 0 (R190). -/
def extracted (s : State) : State :=
  { s with
    result := 0
    status := acceptedStatus 0x06 false s
    outBuf := s.outBuf.setList 0 (s.rxBuf.slice 0 (s.rxBuf.get 1).toNat)
    rxIdx := 0 }

theorem exec_cpGrabmsg {s : State} (hs : s.Ready) :
    exec .cpGrabmsg s =
      .next (if grabCode s = 0 then extracted s
        else { s with result := grabCode s, status := acceptedStatus 0x06 false s }) := by
  have hgrab : grabmsg params (accept 0x06 s) =
      finish (grabCode s) (if grabCode s = 0 then
        { accept 0x06 s with outBuf := s.outBuf.setList 0 (s.rxBuf.slice 0 (s.rxBuf.get 1).toNat), rxIdx := 0 }
      else accept 0x06 s) := grabmsg_eq params (accept 0x06 s)
  refine (exec_ready rfl hs).trans (congrArg Host.Outcome.next (hgrab.trans ?_))
  split_ifs with hcode
  · rw [hcode]
    rfl
  · rfl

/-- `OUT_BUF` after the copy: the frame's bytes, then the bytes that stood past them. -/
theorem extracted_outBuf_get {s : State} (hout : s.outBuf.wf BufId.out.cap) (hlen : (s.rxBuf.get 1).toNat ≤ 64) (i : Nat) :
    (extracted s).outBuf.get i = if i < (s.rxBuf.get 1).toNat then s.rxBuf.get i else s.outBuf.get i := by
  have hroom : 0 + (s.rxBuf.slice 0 (s.rxBuf.get 1).toNat).length ≤ BufId.out.cap := by
    rw [Memory.slice_length, Nat.zero_add]
    exact hlen
  refine (Memory.get_setList _ hout hroom i).trans ?_
  simp

/-- Settles O16: the copy on code 0, nothing but the code on 1 and 2. -/
theorem grabmsgExtracts : Obligations.GrabmsgExtracts := by
  rintro s hs ⟨-, -, hout, -⟩
  rw [exec_cpGrabmsg hs]
  by_cases hcode : grabCode s = 0
  · obtain ⟨-, hcap, -⟩ := (grabCode_eq_zero_iff s).mp hcode
    rw [if_pos hcode]
    refine .of_next ⟨?_, fun _ => ⟨rfl, extracted_outBuf_get hout hcap⟩, fun hne => absurd hcode hne⟩
    rw [hcode]
    rfl
  · rw [if_neg hcode]
    exact .of_next ⟨rfl, fun h => absurd h hcode, fun _ => ⟨rfl, rfl⟩⟩

/-! ### Composed frames -/

theorem Frame.legal_iff (f : Frame) : f.legal = true ↔ f.payload.length ≤ 58 := by simp [Frame.legal]

@[simp] theorem Frame.body_length (f : Frame) : f.body.length = f.payload.length + 4 := by simp [Frame.body]

/-- Byte 1 of a legal frame is its length (R105). -/
theorem Frame.lengthByte_toNat {f : Frame} (hf : f.legal = true) : (BitVec.ofNat 8 f.length).toNat = f.length := by
  rw [Frame.legal_iff] at hf
  simp only [BitVec.toNat_ofNat, Frame.length, Config.minLen]
  omega

/-- A composed frame passes the CRC check, by the law R175. -/
theorem Frame.crcRxOk_compose (P : Params) {f : Frame} (hf : f.legal = true) : P.crcRxOk (f.compose P) = true := by
  rw [Frame.legal_iff] at hf
  exact P.round_trip _ (by rw [Frame.body_length]; omega) (by rw [Frame.body_length]; omega)

/-- The fields of a legal frame are read back from its bytes (R105). -/
theorem extractFrame_compose (P : Params) {f : Frame} (hf : f.legal = true) : extractFrame (f.compose P) = some f := by
  have hpayload : f.length - Config.minLen = f.payload.length := Nat.add_sub_cancel ..
  simp [Frame.compose, Frame.body, extractFrame, Frame.lengthByte_toNat hf, hpayload]

/-- A buffer that holds a composed frame has its length at index 1 (R105). -/
theorem Memory.get_one_of_slice_compose {m : Memory} {P : Params} {f : Frame}
    (h : m.slice 0 f.length = f.compose P) : m.get 1 = BitVec.ofNat 8 f.length := by
  have hlt : 1 < (m.slice 0 f.length).length := by
    rw [Memory.slice_length, Frame.length, Config.minLen]
    omega
  calc m.get 1 = (m.slice 0 f.length)[1] := (Memory.slice_getElem m 0 f.length 1 hlt).symm
    _ = BitVec.ofNat 8 f.length := by simp [h, Frame.compose, Frame.body]

/-- Settles O17: the composed frame passes every check of R190, and the copy is its bytes. -/
theorem frameRoundTrip : Obligations.FrameRoundTrip := by
  rintro f s hf hs ⟨-, -, hout, -⟩ hrx hidx
  have hlen : (s.rxBuf.get 1).toNat = f.length := by
    rw [Memory.get_one_of_slice_compose hrx, Frame.lengthByte_toNat hf]
  have hmin : 6 ≤ f.length := Nat.le_add_left ..
  have hmax : f.length ≤ 64 := Nat.add_le_add_right ((Frame.legal_iff f).mp hf) 6
  have hcode : grabCode s = 0 := by
    rw [grabCode_eq_zero_iff, hlen, hidx, hrx]
    exact ⟨by omega, hmax, le_rfl, hmin, Frame.crcRxOk_compose params hf⟩
  have hcopy : (extracted s).outBuf.slice 0 f.length = f.compose params := by
    rw [← hrx]
    refine Memory.slice_congr fun i _ hi => ?_
    rw [extracted_outBuf_get hout (by omega), if_pos (by omega)]
  rw [exec_cpGrabmsg hs, if_pos hcode]
  exact .of_next ⟨rfl, hcopy, by rw [hcopy, extractFrame_compose params hf], rfl⟩

end Sys2Proof.Machine
end

section
/-! PROOFS. The end of each byte of CP.SENDMSG and CP.WAITMSG, at the fall of cycle 10 (41_framer R182, R187, R188). -/

namespace Sys2Proof.Machine

/-! ### CP.SENDMSG -/

/-- A byte sent goes on to the frame's rest (R129). -/
theorem byteDoneTx_sendmsg {s : State} (h : s.cp.op = .sendmsg) : byteDoneTx s = sendmsgDone s := by
  rw [byteDoneTx, h]

/-- With the clock low the next byte's cycle 1 begins at once (R125, R187). -/
theorem sendCurrent_low {s : State} (h : s.cp.txi.toNat < 64) (hclk : s.lines.clkLvl = false) :
    sendCurrent s = .next (sendingNext (s.txBuf.get s.cp.txi.toNat) s.cp s) := by
  rw [sendCurrent_of_lt h, beginTx_eq]
  simp [sendingNext, hclk]

/-- An ACK moves CP.SENDMSG to the next byte or to the end of the frame (R187). -/
theorem sendmsgDone_ack {s : State} (h : s.cp.ack = false) :
    sendmsgDone s =
      if s.cp.txi + 1 = s.cp.len then .next (finishCp 0 { s with cp := { s.cp with txi := s.cp.txi + 1 } })
      else sendCurrent { s with cp := { s.cp with txi := s.cp.txi + 1 } } := by
  simp [sendmsgDone, h]

/-- A NACK counts a failure, the fifth of which abandons the frame (R187, R188). -/
theorem sendmsgDone_nack {s : State} (h : s.cp.ack = true) :
    sendmsgDone s =
      if s.cp.fail + 1 = 5 then .next (finishCp 0 { s with cp := { s.cp with fail := s.cp.fail + 1 } })
      else sendCurrent { s with cp := { s.cp with fail := s.cp.fail + 1 } } := by
  simp [sendmsgDone, h]

/-- Settles O34: below the frame's length every index is within `TX_BUF`, so the next byte or the same one is sent. -/
theorem sendmsgByteDone : Obligations.SendmsgByteDone := by
  rintro s hf hcps hdir hcyc hop hclk ⟨-, hmax, hlt, -⟩
  have hfall : takeInput .clkFall s = sendmsgDone (withClk false s) :=
    (takeInput_clkFall_tx_last hf hclk hcps hdir hcyc).trans (byteDoneTx_sendmsg (s := withClk false s) hop)
  constructor
  · intro hack cp
    rw [hfall, sendmsgDone_ack (s := withClk false s) hack]
    refine if_ctx_congr Iff.rfl (fun _ => rfl) fun hend => ?_
    have hnext : (s.cp.txi + 1).toNat < 64 := by
      have hne : s.cp.txi + 1 ≠ s.cp.len := hend
      bv_omega
    exact sendCurrent_low (s := { withClk false s with cp := cp }) hnext rfl
  · intro hack cp
    rw [hfall, sendmsgDone_nack (s := withClk false s) hack]
    refine if_ctx_congr Iff.rfl (fun _ => rfl) fun _ => ?_
    exact sendCurrent_low (s := { withClk false s with cp := cp }) (show s.cp.txi.toNat < 64 by omega) rfl

/-! ### CP.WAITMSG -/

/-- A byte received goes on to the checks of the frame (R146). -/
theorem byteDoneRx_waitmsg {s : State} (h : s.cp.op = .waitmsg) : byteDoneRx s = waitmsgDone s := by
  rw [byteDoneRx, h]

/-- CP.WAITMSG after a byte, by the bytes in and the declared length (R182). -/
theorem waitmsgDone_eq (s : State) :
    waitmsgDone s =
      if s.rxIdx.toNat = 4 ∧ ((s.rxBuf.get 1).toNat < 6 ∨ 64 < (s.rxBuf.get 1).toNat) then
        .next (finishCp 1 { s with rxIdx := 0 })
      else if 4 ≤ s.rxIdx.toNat ∧ s.rxIdx.toNat = (s.rxBuf.get 1).toNat then .next (finishCp 0 s)
      else .next (beginRx s) := by
  have hfour : s.rxIdx = 4 ↔ s.rxIdx.toNat = 4 := BitVec.toNat_inj.symm
  have hlen : legalLen (s.rxBuf.get 1) = false ↔ (s.rxBuf.get 1).toNat < 6 ∨ 64 < (s.rxBuf.get 1).toNat := by
    rw [← Bool.not_eq_true, legalLen_iff]
    omega
  rw [waitmsgDone, readByte_of_lt (show 1 < BufId.rx.cap by decide)]
  refine if_congr ?_ rfl (if_congr ?_ rfl rfl)
  · simp only [State.buf, Bool.and_eq_true, decide_eq_true_eq, Bool.not_eq_true', hfour, hlen]
  · simp only [Bool.and_eq_true, decide_eq_true_eq]
    rfl

/-- Settles O38: with room the byte goes in, and the checks of R182 see the buffer with it. -/
theorem waitmsgByteDone : Obligations.WaitmsgByteDone := by
  intro s hf hcps hdir hcyc hop hclk hroom rx n len base
  have happend : takeInput .clkFall s = byteDoneRx (withClk false base) :=
    (takeInput_clkFall_rx_last hf hclk hcps hdir hcyc).trans (appendByte_room hroom)
  have hbegin : beginRx (withClk false base) = { withClk false base with
      cp := { s.cp with
        dir := .rx, ack := false, shift := 0x00, par := false, pb := false, mis := false, cps := .xfer, cyc := 1 } } :=
    beginRx_eq _
  have hn : (withClk false base).rxIdx.toNat = n := show (s.rxIdx + 1).toNat = s.rxIdx.toNat + 1 by bv_omega
  rw [happend, byteDoneRx_waitmsg (s := withClk false base) hop, waitmsgDone_eq, hbegin, hn]
  rfl

end Sys2Proof.Machine
end

section
/-! PROOFS. The STM receiver's commands on acceptance, its events one by one, the end of its commands, and
STM.MEASURE without a reply (42_stm R211–R240). -/

namespace Sys2Proof.Machine

/-! ### Acceptance -/

/-- Settles O15: `startStm` on the accepted state; the cleared ring lists no byte. -/
theorem stmCommandsAccepted : Obligations.StmCommandsAccepted := by
  intro ch s hs
  exact ⟨exec_ready rfl hs, exec_ready rfl hs, fun i => Memory.get_nil i⟩

/-! ### A sensor's line -/

/-- A change of a sensor's level that is no start bit is bookkeeping alone (R41, R211). -/
theorem takeInput_rxSet_dropped {ch : Channel} {v : Bool} {s : State}
    (h : stmRxFall ch (bookkept (.rxSet ch v) s) = .next (bookkept (.rxSet ch v) s)) :
    takeInput (.rxSet ch v) s = .next (bookkept (.rxSet ch v) s) := by
  simp only [takeInput, onRxSet]
  split_ifs with hlvl
  · rw [bookkept_rxSet_of_eq hlvl]
  · rfl
  · exact onEvent_dropped h

/-- Outside `STM_ARMED` no edge is a start bit (R218). -/
theorem stmRxFall_of_ne_armed {ch : Channel} {s : State} (h : s.stm.sts ≠ .armed) : stmRxFall ch s = .next s := by
  unfold stmRxFall
  split
  · exact absurd ‹_› h
  all_goals rfl

/-- A real fall of a sensor's line, with no fault, goes to the STM engine (R41, R307). -/
theorem takeInput_rxFall_live {ch : Channel} {s : State} (hf : s.status.fault = false)
    (hlvl : s.lines.rxLvl.get ch = true) :
    takeInput (.rxSet ch false) s = stmRxFall ch (bookkept (.rxSet ch false) s) := by
  rw [takeInput, onRxSet, if_neg (by simp [hlvl])]
  exact onEvent_live hf

/-- In `STM_ARMED` with the edge interrupt enabled, the selected channel's edge alone begins a character (R211, R218). -/
theorem stmRxFall_armed {ch : Channel} {s : State} (hsts : s.stm.sts = .armed) (hedge : s.stm.edgeEn = true) :
    stmRxFall ch s =
      .next { s with
        stm :=
          if ch = s.stm.ch then { s.stm with sts := .sampling, edgeEn := false, k := 9, shift := 0x00 }
          else s.stm } := by
  by_cases hch : ch = s.stm.ch <;> simp [stmRxFall, hsts, hedge, hch]

/-- Settles O43: `DelayDone` is the engine's own arm, and an edge before it falls outside `STM_ARMED`. -/
theorem delayDoneArms : Obligations.DelayDoneArms := by
  intro s hf hsts
  constructor
  · rw [takeInput, onEvent_live hf, stmDelayDone, hsts]
  · exact fun ch v => takeInput_rxSet_dropped (stmRxFall_of_ne_armed (by simp [bookkept, hsts]))

/-- Settles O44: the fall is a real edge, and `stmRxFall_armed` asks for the selected channel. -/
theorem startBitSelected : Obligations.StartBitSelected := by
  intro ch s hf hsts hedge hlvl
  rw [takeInput_rxFall_live hf hlvl, stmRxFall_armed (s := bookkept (.rxSet ch false) s) hsts hedge]
  rfl

/-! ### A tick of the bit timer -/

/-- A tick with 2 or more expected samples a data bit (R222). -/
theorem takeInput_bitTick_data {s : State} (hf : s.status.fault = false) (hsts : s.stm.sts = .sampling)
    (hk : 2 ≤ s.stm.k.toNat) : takeInput .bitTick s = .next (stmDataBit (s.lines.rxLvl.get s.stm.ch) s) := by
  simp [takeInput, onEvent_live hf, stmBitTick, hsts, hk]

/-- The stop bit's tick stores the character, whatever the line's level (R222, R226). -/
theorem takeInput_bitTick_stop {s : State} (hf : s.status.fault = false) (hsts : s.stm.sts = .sampling)
    (hk : s.stm.k = 1) : takeInput .bitTick s = storeByte s.stm.shift (rearm s) := by
  simp [takeInput, onEvent_live hf, stmBitTick, hsts, hk]

/-- Settles O45: a data bit is `setBit` at `9 - STM_K`; the stop bit's store is a write at the ring's index. -/
theorem bitTickSamples : Obligations.BitTickSamples := by
  rintro s hf hsts hidx ⟨-, -, -, hring⟩
  constructor
  · intro hk _
    rw [takeInput_bitTick_data hf hsts hk]
    exact .of_next ⟨rfl, fun j hj => getLsbD_setBit s.stm.shift _ hj⟩
  · intro hk
    rw [takeInput_bitTick_stop hf hsts hk, storeByte_of_lt (s := rearm s) hidx]
    exact .of_next ⟨rfl, nextStmIdx_toNat hidx, fun i =>
      (Memory.get_set_of_sorted hring.1 _ _ i).trans (if_congr eq_comm rfl rfl)⟩

/-! ### A rollover -/

/-- In `STM_ARMED`, with no fault, a rollover counts (R212, R219). -/
theorem takeInput_rollover_armed {s : State} (hf : s.status.fault = false) (hsts : s.stm.sts = .armed) :
    takeInput .rollover s = .next (countRollover params s) := by
  rw [takeInput, onEvent_live hf, stmRollover, hsts]

/-- Settles O47: the two checks of `countRollover` in their order. -/
theorem rolloverCounts : Obligations.RolloverCounts := by
  intro s hf hsts t
  rw [takeInput_rollover_armed hf hsts]
  simp only [countRollover, Bool.and_eq_true, decide_eq_true_eq, apply_ite Host.Outcome.next]
  rfl

/-! ### The end of an STM command -/

/-- A reply that passes its checksum has its first CR at 17 at the latest (R252, R255). -/
theorem findCr_of_checksumPasses {m : Memory} (h : checksumPasses m = true) : ∃ n, findCr m = some n ∧ n ≤ 17 := by
  unfold checksumPasses at h
  split at h
  · cases h
  · next n hcr =>
    simp only [Bool.and_eq_true, decide_eq_true_eq] at h
    exact ⟨n, hcr, h.1⟩

/-- The registry write of a reply with its first CR at `n` (R228, R236). -/
theorem probeType_stype {s : State} {n : Nat} (h : findCr s.stmBuf = some n) :
    (probeType s).stype = s.stype.set s.stm.ch (s.stmBuf.get (n + 1)) := by
  rw [probeType, h]

/-- The code of `finish_stm` (R228). -/
theorem finishStm_result (P : Params) (timedOut : Bool) (s : State) :
    (finishStm P timedOut s).result = if timedOut then 2 else if checksumPasses s.stmBuf = false then 1 else 0 := by
  rw [finishStm_eq]
  cases checksumPasses s.stmBuf <;> rfl

/-- `finish_stm` reports 0 on a checksum that passes in time, and on nothing else (R228). -/
theorem finishStm_result_eq_zero_iff (P : Params) (timedOut : Bool) (s : State) :
    (finishStm P timedOut s).result = 0 ↔ timedOut = false ∧ checksumPasses s.stmBuf = true := by
  rw [finishStm_result]
  cases timedOut <;> cases checksumPasses s.stmBuf <;> decide

/-- Settles O48: `finishStm_eq` gives every field, and code 0 means a checksum that passes in time. -/
theorem finishStmEnds : Obligations.FinishStmEnds := by
  intro s timedOut t
  have ht : t = _ := finishStm_eq params timedOut s
  have hzero : t.result = 0 ↔ timedOut = false ∧ checksumPasses s.stmBuf = true :=
    finishStm_result_eq_zero_iff params timedOut s
  refine ⟨by rw [ht], by rw [ht], by rw [ht], finishStm_result params timedOut s, ?_, ?_, ?_, ?_⟩
  · intro hres
    have hfail : ∀ q : Prop, ¬(timedOut = false ∧ checksumPasses s.stmBuf = true ∧ q) :=
      fun q ⟨hto, hpass, _⟩ => hres (hzero.mpr ⟨hto, hpass⟩)
    simp only [ht, if_neg (hfail _), and_self]
  · intro hres hop
    obtain ⟨hto, hpass⟩ := hzero.mp hres
    simp [ht, hto, hpass, hop]
  · intro hres hop
    obtain ⟨hto, hpass⟩ := hzero.mp hres
    obtain ⟨n, hcr, hn⟩ := findCr_of_checksumPasses hpass
    obtain ⟨-, hat, hbefore⟩ := findCr_eq_some.mp hcr
    have hop' : s.stm.op ≠ .measure := by simp [hop]
    refine ⟨by simp [ht, hop], by simp [ht, hop], n, hn, hat, hbefore, ?_⟩
    simp only [ht, if_pos (And.intro hto (And.intro hpass hop')), probeType_stype hcr]
  · simp only [ht, and_self]

/-! ### STM.MEASURE without a reply -/

/-- STM.MEASURE on `ch` begun in `s`, after the warm-up and `n` rollovers, with no character stored (R215, R216, R219). -/
def unanswered (n : Nat) (ch : Channel) (s : State) : State :=
  let t := stmStarted 0x10 .measure 10 ch s
  { t with stm := { t.stm with sts := .armed, edgeEn := true, tocnt := BitVec.ofNat 4 n } }

/-- The command and the end of the warm-up (R215, R216). -/
theorem runs_measure_delayDone (ch : Channel) {s : State} (rest : List Input) (h : s.Ready) :
    runs (.cmd (encode (.stmMeasure ch)) :: .delayDone :: rest) s = runs rest (unanswered 0 ch s) := by
  have hcmd : takeInput (.cmd (encode (.stmMeasure ch))) s = .next (stmStarted 0x10 .measure 10 ch s) :=
    takeInput_cmd_encode rfl h
  have harm : takeInput .delayDone (stmStarted 0x10 .measure 10 ch s) = .next (unanswered 0 ch s) :=
    (delayDoneArms (stmStarted 0x10 .measure 10 ch s) h.1 rfl).1
  rw [runs_cons hcmd, runs_cons harm]

/-- With no character stored a rollover before the tenth only counts (R219). -/
theorem takeInput_rollover_unanswered {n : Nat} {ch : Channel} {s : State} (hn : n < 9) (hf : s.status.fault = false) :
    takeInput .rollover (unanswered n ch s) = .next (unanswered (n + 1) ch s) := by
  have hcount : BitVec.ofNat 4 n + 1 = BitVec.ofNat 4 (n + 1) := BitVec.ofNat_add_ofNat n 1
  have hbound : BitVec.ofNat 4 n + 1 ≠ 10 := by bv_omega
  have hnext : countRollover params (unanswered n ch s) = unanswered (n + 1) ch s := by
    simp only [unanswered, ← hcount]
    exact if_neg hbound
  rw [takeInput_rollover_armed (s := unanswered n ch s) hf rfl, hnext]

/-- The tenth rollover times out (R219, R230). -/
theorem takeInput_rollover_unanswered_last {ch : Channel} {s : State} (hf : s.status.fault = false) :
    takeInput .rollover (unanswered 9 ch s) = .next (finishStm params true (unanswered 10 ch s)) :=
  rolloverCounts (unanswered 9 ch s) hf rfl

theorem runs_rollovers_unanswered (m : Nat) {n : Nat} {ch : Channel} {s : State} (rest : List Input) (hn : n + m ≤ 9)
    (hf : s.status.fault = false) :
    runs (List.replicate m .rollover ++ rest) (unanswered n ch s) = runs rest (unanswered (n + m) ch s) := by
  induction m generalizing n with
  | zero => rfl
  | succ m ih =>
    rw [List.replicate_succ, List.cons_append, runs_cons (takeInput_rollover_unanswered (by omega) hf), ih (by omega),
      Nat.add_right_comm, Nat.add_assoc]

/-- Settles O49: nine rollovers count, and the tenth is the timeout of `finish_stm`. -/
theorem measureTimesOut : Obligations.MeasureTimesOut := by
  intro ch s hs
  have hsplit : List.replicate 10 Input.rollover = List.replicate 9 .rollover ++ [.rollover] := rfl
  rw [hsplit, runs_measure_delayDone ch _ hs, runs_rollovers_unanswered 9 _ (by omega) hs.1,
    runs_cons (takeInput_rollover_unanswered_last hs.1), runs_nil, finishStm_eq]
  exact .of_next ⟨rfl, rfl, PerChannel.get_set_self _ ch false, rfl, rfl, rfl, rfl, rfl⟩

end Sys2Proof.Machine
end

section
/-! PROOFS. The sensor reply's checksum and its parser (43_stm_parser R250–R264): STM.CHECKSUM's verdict, what
STM.PARSE writes from `STM_BUF`, and the backward scan of a reply's two fields. -/

namespace Sys2Proof.Machine

/-! ### The checksum -/

/-- The checksum passes on a first CR at 17 at the latest, two before the expected byte (R255). -/
theorem checksumPasses_iff {m : Memory} :
    checksumPasses m = true ↔ ∃ n, n ≤ 17 ∧ findCr m = some n ∧ (m.get (n + 2)).toNat = expectedChecksum m n := by
  unfold checksumPasses
  cases findCr m <;> simp

theorem checksum_eq_zero_iff {m : Memory} : checksum m = 0 ↔ checksumPasses m = true := by
  unfold checksum
  cases checksumPasses m <;> simp

theorem checksum_eq_zero_or_one (m : Memory) : checksum m = 0 ∨ checksum m = 1 := ite_eq_or_eq _ _ _

/-- The sum of R253 as one over the indices. -/
theorem checksumSum_eq (m : Memory) (n : Nat) :
    checksumSum m n = ((List.range (n + 2)).map fun i => (m.get i).toNat).sum := by
  rw [checksumSum, Memory.slice, ← List.range_eq_range', List.map_map]
  rfl

/-- The expected byte is printable (R253). -/
theorem expectedChecksum_range (m : Memory) (n : Nat) : 0x20 ≤ expectedChecksum m n ∧ expectedChecksum m n ≤ 0x5F := by
  unfold expectedChecksum
  omega

theorem exec_stmChecksum {s : State} (hs : s.Ready) :
    exec .stmChecksum s = .next { s with result := checksum s.stmBuf, status := acceptedStatus 0x12 false s } :=
  exec_ready rfl hs

/-- Settles O21: `checksum` is its verdict, with `find_cr`'s index as the first CR. -/
theorem checksumVerdict : Obligations.ChecksumVerdict := by
  intro s hs
  refine ⟨_, exec_stmChecksum hs, rfl, checksum_eq_zero_or_one _, checksum_eq_zero_iff.trans (checksumPasses_iff.trans ?_)⟩
  refine exists_congr fun n => and_congr_right fun hn => ?_
  rw [findCr_eq_some, expectedChecksum, checksumSum_eq]
  have hlt : n < 20 := by omega
  simp only [hlt, true_and, and_assoc]

/-- Settles O22: the byte is the expected one, which is printable. -/
theorem checksumNeverTerminates : Obligations.ChecksumNeverTerminates := by
  intro s n hcr hpass
  obtain ⟨n', -, hcr', hbyte⟩ := checksumPasses_iff.mp hpass
  obtain rfl : n = n' := Option.some.inj (hcr.symm.trans hcr')
  obtain ⟨hlow, hhigh⟩ := expectedChecksum_range s.stmBuf n
  rw [← hbyte] at hlow hhigh
  exact ⟨hlow, hhigh, by bv_omega, by bv_omega⟩

/-! ### What STM.PARSE writes -/

/-- The new `SOIL` and `TEMP`, if the parse writes any: they depend on `STM_BUF` and the family codes alone (R263). -/
def parsedPair (P : Params) (m : Memory) : Option (Word × Word) :=
  (findCr m).bind fun t => if 18 < t then none else (family P (m.get (t + 1))).map fun f => parseFields m f.signed t

theorem parse_eq_parsedPair (P : Params) (s : State) :
    parse P s =
      { s with
        soil := ((parsedPair P s.stmBuf).getD (s.soil, s.temp)).1
        temp := ((parsedPair P s.stmBuf).getD (s.soil, s.temp)).2 } := by
  unfold parse parsedPair
  cases findCr s.stmBuf with
  | none => rfl
  | some t =>
    by_cases ht : 18 < t
    · simp [ht]
    · cases hf : family P (s.stmBuf.get (t + 1)) <;> simp [ht, hf]

/-- STM.PARSE on a reply of a known family (R262). -/
theorem parsedPair_of_family {P : Params} {m : Memory} {t : Nat} {f : Family} (hcr : findCr m = some t) (ht : t ≤ 18)
    (hf : family P (m.get (t + 1)) = some f) : parsedPair P m = some (parseFields m f.signed t) := by
  simp [parsedPair, hcr, hf, ht]

/-- STM.PARSE without a discriminator it knows (R262). -/
theorem parsedPair_eq_none {P : Params} {m : Memory}
    (h : ∀ t, findCr m = some t → t ≤ 18 → family P (m.get (t + 1)) = none) : parsedPair P m = none := by
  unfold parsedPair
  cases hcr : findCr m with
  | none => rfl
  | some t =>
    by_cases ht : 18 < t
    · simp [ht]
    · simp [ht, h t hcr (by omega)]

/-- The next state of STM.PARSE, from a state with nothing in flight. -/
def afterParse (s : State) : State :=
  { s with
    result := 0
    status := acceptedStatus 0x13 false s
    soil := ((parsedPair params s.stmBuf).getD (s.soil, s.temp)).1
    temp := ((parsedPair params s.stmBuf).getD (s.soil, s.temp)).2 }

theorem exec_stmParse {s : State} (hs : s.Ready) : exec .stmParse s = .next (afterParse s) := by
  rw [exec_ready rfl hs, execBody, parse_eq_parsedPair]
  rfl

/-- Any command leaves `TEMP` and `SOIL`, and the block as unready as it was, while it is not accepted (R302, R313). -/
theorem exec_of_not_ready {i : Instr} {s t : State} (hs : ¬ s.Ready) (h : exec i s = .next t) :
    ¬ t.Ready ∧ t.temp = s.temp ∧ t.soil = s.soil := by
  rw [exec_eq] at h
  obtain ⟨-, rfl⟩ | ⟨-, -, rfl⟩ | ⟨hr, -⟩ | ⟨hr, -⟩ := onCommand_cases h
  · exact ⟨hs, rfl, rfl⟩
  · exact ⟨hs, rfl, rfl⟩
  · exact absurd hr hs
  · exact absurd hr hs

/-- Settles O25: the pair is `parsedPair`'s, and a second STM.PARSE reads the same `STM_BUF`. -/
theorem parseIdempotent : Obligations.ParseIdempotent := by
  refine ⟨fun m => ⟨parsedPair params m, ?_⟩, fun s t u hst htu => ?_⟩
  · rintro s hs rfl
    exact exec_stmParse hs
  · by_cases hs : s.Ready
    · obtain rfl : afterParse s = t := Host.Outcome.next.inj ((exec_stmParse hs).symm.trans hst)
      have ht : (afterParse s).Ready := ⟨hs.1, rfl⟩
      obtain rfl : afterParse (afterParse s) = u := Host.Outcome.next.inj ((exec_stmParse ht).symm.trans htu)
      simp only [afterParse]
      cases parsedPair params s.stmBuf <;> exact ⟨rfl, rfl⟩
    · obtain ⟨ht, -⟩ := exec_of_not_ready hs hst
      obtain ⟨-, hkept⟩ := exec_of_not_ready ht htu
      exact hkept

/-- The unrecognized discriminators (R258). -/
theorem family_eq_none {P : Params} {d : Byte} (h1 : d ≠ 0x7A) (h2 : d ≠ P.fam2Code) (h3 : d ≠ P.fam3Code) :
    family P d = none := by
  rw [family, if_neg h1, if_neg h2, if_neg h3]

/-- Settles O24: there is no pair to write. -/
theorem parseUnrecognized : Obligations.ParseUnrecognized := by
  intro s hs h
  have hnone : parsedPair params s.stmBuf = none := parsedPair_eq_none fun t hcr ht => by
    obtain ⟨-, hat, hbefore⟩ := findCr_eq_some.mp hcr
    obtain ⟨h1, h2, h3⟩ := h t ht hat hbefore
    exact family_eq_none h1 h2 h3
  rw [exec_stmParse hs, afterParse, hnone]
  rfl

/-- The families' discriminators, by whether the family has signs and points (R258). -/
theorem family_of_discriminates {signed : Bool} {d : Byte} (h : discriminates signed d) :
    ∃ f, family params d = some f ∧ f.signed = signed := by
  obtain ⟨rfl, rfl⟩ | ⟨rfl, rfl | rfl⟩ := h
  · exact ⟨.fam1, if_pos rfl, rfl⟩
  · exact ⟨.fam2, by rw [family, if_neg params.fam2_ne_fam1, if_pos rfl], rfl⟩
  · exact ⟨.fam3, by rw [family, if_neg params.fam3_ne_fam1, if_neg params.fam2_ne_fam3.symm, if_pos rfl], rfl⟩

/-! ### The bytes of a reply in the buffer -/

/-- The bytes `bs` stand in the buffer from index `n` on. -/
def Memory.HasAt (m : Memory) (n : Nat) (bs : List Byte) : Prop := m.slice n bs.length = bs

theorem Memory.hasAt_append {m : Memory} {n : Nat} {xs ys : List Byte} :
    m.HasAt n (xs ++ ys) ↔ m.HasAt n xs ∧ m.HasAt (n + xs.length) ys := by
  have hsplit : m.slice n (xs ++ ys).length = m.slice n xs.length ++ m.slice (n + xs.length) ys.length := by
    rw [Memory.slice, List.length_append, ← List.range'_append_1, List.map_append]
    rfl
  rw [HasAt, hsplit]
  exact ⟨fun h => List.append_inj h (Memory.slice_length _ _ _), fun ⟨hx, hy⟩ => congrArg₂ _ hx hy⟩

theorem Memory.hasAt_cons {m : Memory} {n : Nat} {b : Byte} {bs : List Byte} :
    m.HasAt n (b :: bs) ↔ m.get n = b ∧ m.HasAt (n + 1) bs := List.cons_eq_cons

theorem Memory.HasAt.getElem? {m : Memory} {n i : Nat} {bs : List Byte} (h : m.HasAt n bs) (hi : i < bs.length) :
    bs[i]? = some (m.get (n + i)) := by
  have hlt : i < (m.slice n bs.length).length := by rwa [Memory.slice_length]
  calc bs[i]? = (m.slice n bs.length)[i]? := congrArg (·[i]?) h.symm
    _ = some (m.get (n + i)) := by rw [List.getElem?_eq_getElem hlt, Memory.slice_getElem]

theorem Memory.HasAt.getLast? {m : Memory} {bs : List Byte} (h : m.HasAt 0 bs) (hlen : bs.length ≠ 0) :
    bs.getLast? = some (m.get (bs.length - 1)) := by
  rw [List.getLast?_eq_getElem?, h.getElem? (by omega), Nat.zero_add]

/-- A CR just after bytes with no CR among them is the first (R252). -/
theorem findCr_of_hasAt {m : Memory} {bs : List Byte} (h : m.HasAt 0 bs) (hcr : 0x0D ∉ bs) (hlen : bs.length < 20)
    (hat : m.get bs.length = 0x0D) : findCr m = some bs.length := by
  refine findCr_eq_some.mpr ⟨hlen, hat, fun j hj heq => hcr (List.mem_of_getElem? (i := j) ?_)⟩
  rw [h.getElem? hj, Nat.zero_add, heq]

/-! ### The backward scan of a field -/

/-- The scan that starts just before index `n` ends at once: at the buffer's start, or at the byte at `stop` (R259). -/
def ScanEnds (m : Memory) (signed : Bool) (n stop : Nat) (e : FieldEnd) : Prop :=
  ∀ acc weight, scanFrom m signed n acc weight = ⟨acc, stop, e⟩

theorem scanEnds_start (m : Memory) (signed : Bool) : ScanEnds m signed 0 0 .start := fun _ _ => rfl

theorem scanEnds_space {m : Memory} {n : Nat} (signed : Bool) (h : m.get n = 0x20) : ScanEnds m signed (n + 1) n .space :=
  fun _ _ => if_pos h

theorem scanEnds_minus {m : Memory} {n : Nat} (h : m.get n = 0x2D) : ScanEnds m true (n + 1) n .minus := by
  intro acc weight
  simp [scanFrom, h]

/-- No byte of a field is one that ends it (R259), or a CR. -/
theorem isField_concat {signed : Bool} {ds : List Byte} {c : Byte} :
    isField signed (ds ++ [c]) = true ↔ isField signed ds = true ∧ c ≠ 0x20 ∧ c ≠ 0x0D ∧ ¬(signed && c = 0x2D) = true := by
  simp [isField, and_assoc, imp_iff_not_or]

theorem digit_one (c : Byte) : digit c 1 = BitVec.ofNat 32 c.toNat - 0x30 := by
  simp [digit, zext32]

/-- The rightmost byte has weight 1, and a point of a signed family none (R259). -/
theorem fieldWord_concat (signed : Bool) (ds : List Byte) (c : Byte) :
    fieldWord signed (ds ++ [c]) =
      if signed && c = 0x2E then fieldWord signed ds else 10 * fieldWord signed ds + digit c 1 := by
  rw [fieldWord, List.foldl_append, digit_one]
  rfl

/-- The scan of a whole field: its bytes' value by the weight it began with, then its end (R259, R261). -/
theorem ScanEnds.scanFrom_field {m : Memory} {signed : Bool} {n stop : Nat} {e : FieldEnd} {ds : List Byte}
    (hend : ScanEnds m signed n stop e) (hds : isField signed ds = true) (hat : m.HasAt n ds) (acc weight : Word) :
    scanFrom m signed (n + ds.length) acc weight = ⟨acc + fieldWord signed ds * weight, stop, e⟩ := by
  induction ds using List.reverseRecOn generalizing acc weight with
  | nil =>
    have hzero : acc + fieldWord signed [] * weight = acc := by simp [fieldWord]
    rw [hzero]
    exact hend acc weight
  | append_singleton ds c ih =>
    obtain ⟨hds, hsp, -, hminus⟩ := isField_concat.mp hds
    obtain ⟨hat, hc⟩ := Memory.hasAt_append.mp hat
    obtain ⟨hc, -⟩ := Memory.hasAt_cons.mp hc
    rw [List.length_append, List.length_singleton, ← Nat.add_assoc, scanFrom, hc, if_neg hsp, if_neg hminus,
      fieldWord_concat]
    split_ifs with hdot
    · exact ih hds hat acc weight
    · rw [ih hds hat, digit, digit]
      congr 1
      ring

theorem ScanEnds.scanField {m : Memory} {signed : Bool} {n stop : Nat} {e : FieldEnd} {ds : List Byte}
    (hend : ScanEnds m signed n stop e) (hds : isField signed ds = true) (hat : m.HasAt n ds) :
    scanField m signed (n + ds.length) = ⟨fieldWord signed ds, stop, e⟩ := by
  simp [Machine.scanField, hend.scanFrom_field hds hat]

/-! ### The two fields of a reply -/

/-- A field's value is negated exactly after a minus (R260). -/
theorem Field.value_eq_signedWord (acc : Word) (stop : Nat) (e : FieldEnd) :
    Field.value ⟨acc, stop, e⟩ = signedWord (e = .minus) acc := by
  cases e <;> rfl

/-- The scan of field B ends at what stands left of it (R260). -/
theorem scanEnds_of_precedes {m : Memory} {signed neg : Bool} {pre : List Byte} (h : precedes signed neg pre)
    (hat : m.HasAt 0 pre) : ∃ stop e, ScanEnds m signed pre.length stop e ∧ decide (e = .minus) = neg := by
  have hlast : ∀ {b : Byte}, pre.getLast? = some b → ∃ n, pre.length = n + 1 ∧ m.get n = b := by
    intro b hb
    have hne : pre.length ≠ 0 := fun h0 => by simp [List.length_eq_zero_iff.mp h0] at hb
    exact ⟨pre.length - 1, by omega, Option.some.inj ((hat.getLast? hne).symm.trans hb)⟩
  obtain ⟨rfl, rfl | hsp⟩ | ⟨rfl, rfl, hminus⟩ := h
  · exact ⟨0, .start, scanEnds_start m signed, rfl⟩
  · obtain ⟨n, hn, hb⟩ := hlast hsp
    exact ⟨n, .space, hn ▸ scanEnds_space signed hb, rfl⟩
  · obtain ⟨n, hn, hb⟩ := hlast hminus
    exact ⟨n, .minus, hn ▸ scanEnds_minus hb, rfl⟩

/-- The scan of field A ends at what separates it from `rest`, and field B's scan starts at the end of `rest` (R260). -/
theorem scanEnds_of_separates {m : Memory} {signed neg : Bool} {rest sep : List Byte} (h : separates signed neg rest sep)
    (hat : m.HasAt 0 (rest ++ sep)) :
    ∃ stop e, ScanEnds m signed (rest ++ sep).length stop e ∧ decide (e = .minus) = neg ∧
      ∀ acc, fieldBStart m ⟨acc, stop, e⟩ = rest.length := by
  obtain ⟨hrest, hsep⟩ := Memory.hasAt_append.mp hat
  rw [Nat.zero_add] at hsep
  rw [List.length_append]
  obtain ⟨rfl, rfl | ⟨rfl, rfl⟩⟩ | ⟨rfl, rfl, rfl | ⟨rfl, hnosp⟩⟩ := h
  · exact ⟨rest.length, .space, scanEnds_space signed (Memory.hasAt_cons.mp hsep).1, rfl, fun _ => rfl⟩
  · exact ⟨0, .start, scanEnds_start m signed, rfl, fun _ => rfl⟩
  · obtain ⟨hsp, hminus⟩ := Memory.hasAt_cons.mp hsep
    refine ⟨rest.length + 1, .minus, scanEnds_minus (Memory.hasAt_cons.mp hminus).1, rfl, fun _ => ?_⟩
    simp [fieldBStart, hsp]
  · refine ⟨rest.length, .minus, scanEnds_minus (Memory.hasAt_cons.mp hsep).1, rfl, fun _ => ?_⟩
    refine if_neg fun hcond => hnosp ?_
    simp only [decide_true, Bool.true_and, Bool.and_eq_true, decide_eq_true_eq] at hcond
    obtain ⟨hne, hsp⟩ := hcond
    rw [hrest.getLast? hne, hsp]

/-- The two fields of a reply's bytes before the CR (R258–R262). -/
theorem parseFields_eq {m : Memory} {signed negA negB : Bool} {pre b sep a : List Byte} (ha : isField signed a = true)
    (hb : isField signed b = true) (hpre : precedes signed negB pre) (hsep : separates signed negA (pre ++ b) sep)
    (hat : m.HasAt 0 (pre ++ b ++ sep ++ a)) :
    parseFields m signed (pre ++ b ++ sep ++ a).length =
      (signedWord negA (fieldWord signed a), signedWord negB (fieldWord signed b)) := by
  obtain ⟨hatSep, hatA⟩ := Memory.hasAt_append.mp hat
  obtain ⟨hatB, -⟩ := Memory.hasAt_append.mp hatSep
  obtain ⟨hatPre, hatB⟩ := Memory.hasAt_append.mp hatB
  rw [Nat.zero_add] at hatA hatB
  obtain ⟨stopA, eA, hendA, rfl, hstart⟩ := scanEnds_of_separates hsep hatSep
  obtain ⟨stopB, eB, hendB, rfl⟩ := scanEnds_of_precedes hpre hatPre
  rw [parseFields, List.length_append, hendA.scanField ha hatA, hstart, List.length_append, hendB.scanField hb hatB,
    Field.value_eq_signedWord, Field.value_eq_signedWord]

/-- No byte before the CR of a reply is another CR. -/
theorem noCr_of_fields {signed neg : Bool} {pre b sep a : List Byte} (ha : isField signed a = true)
    (hb : isField signed b = true) (hpre : 0x0D ∉ pre) (hsep : separates signed neg (pre ++ b) sep) :
    0x0D ∉ pre ++ b ++ sep ++ a := by
  have hfield : ∀ {ds : List Byte}, isField signed ds = true → 0x0D ∉ ds := fun hds hmem => by
    simpa using List.all_eq_true.mp hds _ hmem
  have hnosep : 0x0D ∉ sep := by
    obtain ⟨-, rfl | ⟨rfl, -⟩⟩ | ⟨-, -, rfl | ⟨rfl, -⟩⟩ := hsep <;> decide
  simp only [List.mem_append, hpre, hfield ha, hfield hb, hnosep, or_self, not_false_eq_true]

/-! ### Decimal fields -/

/-- Digits and points alone (R259, R261). -/
def DecimalBytes (ds : List Byte) : Prop := ∀ c ∈ ds, c = 0x2E ∨ 0x30 ≤ c.toNat ∧ c.toNat ≤ 0x39

theorem decimalBytes_concat {ds : List Byte} {c : Byte} :
    DecimalBytes (ds ++ [c]) ↔ DecimalBytes ds ∧ (c = 0x2E ∨ 0x30 ≤ c.toNat ∧ c.toNat ≤ 0x39) := by
  simp only [DecimalBytes, List.forall_mem_append, List.forall_mem_singleton]

theorem isDecimalField_iff {ds : List Byte} :
    isDecimalField ds = true ↔ DecimalBytes ds ∧ (ds.filter (· ≠ 0x2E)).length ≤ 9 := by
  simp [isDecimalField, DecimalBytes]

theorem decimalValue_concat (ds : List Byte) (c : Byte) :
    decimalValue (ds ++ [c]) = if c = 0x2E then decimalValue ds else 10 * decimalValue ds + (c.toNat - 0x30) := by
  rw [decimalValue, List.foldl_append]
  rfl

/-- A decimal field's value modulo 2^32 is that of the number it spells (R261). -/
theorem fieldWord_eq_ofNat {signed : Bool} {ds : List Byte} (h : DecimalBytes ds) (hdot : signed = true ∨ 0x2E ∉ ds) :
    fieldWord signed ds = BitVec.ofNat 32 (decimalValue ds) := by
  induction ds using List.reverseRecOn with
  | nil => rfl
  | append_singleton ds c ih =>
    obtain ⟨hds, hbyte⟩ := decimalBytes_concat.mp h
    have hdots : signed = true ∨ 0x2E ∉ ds := hdot.imp_right fun hno hmem => hno (List.mem_append_left _ hmem)
    rw [fieldWord_concat, decimalValue_concat, ih hds hdots]
    by_cases hc : c = 0x2E
    · have hsigned : signed = true := hdot.resolve_right fun hno => hno (by simp [hc])
      simp [hc, hsigned]
    · obtain ⟨hlow, -⟩ := hbyte.resolve_left hc
      have hdigit : digit c 1 = BitVec.ofNat 32 (c.toNat - 0x30) := by
        rw [digit_one]
        bv_omega
      rw [if_neg hc, hdigit, BitVec.ofNat_add, BitVec.ofNat_mul]
      exact if_neg fun hpoint => hc (of_decide_eq_true (Bool.and_eq_true_iff.mp hpoint).2)

theorem decimalValue_lt {ds : List Byte} (h : DecimalBytes ds) :
    decimalValue ds < 10 ^ (ds.filter (· ≠ 0x2E)).length := by
  induction ds using List.reverseRecOn with
  | nil => decide
  | append_singleton ds c ih =>
    obtain ⟨hds, hbyte⟩ := decimalBytes_concat.mp h
    have hlt := ih hds
    rw [decimalValue_concat, List.filter_append, List.length_append]
    by_cases hc : c = 0x2E
    · simpa [hc] using hlt
    · obtain ⟨-, hhigh⟩ := hbyte.resolve_left hc
      have hone : ([c].filter (· ≠ 0x2E)).length = 1 := by rw [List.filter_singleton, decide_eq_true hc]; rfl
      rw [if_neg hc, hone, Nat.pow_succ]
      omega

/-- A value of at most nine digits is read back with its sign (R260). -/
theorem toInt_signedWord (neg : Bool) {n : Nat} (hn : n < 10 ^ 9) :
    (signedWord neg (BitVec.ofNat 32 n)).toInt = if neg then -(n : Int) else n := by
  have hpos : (BitVec.ofNat 32 n).toInt = n := by
    rw [BitVec.toInt_ofNat']
    exact Int.bmod_eq_of_le (by omega) (by omega)
  cases neg
  · exact hpos
  · have hneg : signedWord true (BitVec.ofNat 32 n) = -BitVec.ofNat 32 n := BitVec.zero_sub _
    rw [hneg, BitVec.toInt_neg, hpos]
    exact Int.bmod_eq_of_le (by omega) (by omega)

/-- Settles O23: the CR ends the bytes that hold the two fields, and a decimal field's value is the number it spells. -/
theorem parseReadsDecimals : Obligations.ParseReadsDecimals := by
  constructor
  · intro s signed negA negB d pre b sep a hs hd ha hb hcr hpre hsep reply hlen hslice
    obtain ⟨hat, htail⟩ := (Memory.hasAt_append (m := s.stmBuf) (n := 0)).mp hslice
    obtain ⟨hatCr, hatD⟩ := Memory.hasAt_cons.mp htail
    obtain ⟨hatD, -⟩ := Memory.hasAt_cons.mp hatD
    rw [Nat.zero_add] at hatCr hatD
    have hle : (pre ++ b ++ sep ++ a).length ≤ 18 := by
      have : reply.length = (pre ++ b ++ sep ++ a).length + 2 := List.length_append
      omega
    have hfind := findCr_of_hasAt hat (noCr_of_fields ha hb hcr hsep) (by omega) hatCr
    obtain ⟨f, hf, rfl⟩ := family_of_discriminates hd
    have hpair := parsedPair_of_family hfind hle (hatD.symm ▸ hf)
    rw [exec_stmParse hs, afterParse, hpair, parseFields_eq ha hb hpre hsep hat]
    rfl
  · intro signed neg ds hdec hdot
    obtain ⟨hbytes, hdigits⟩ := isDecimalField_iff.mp hdec
    rw [fieldWord_eq_ofNat hbytes hdot]
    exact toInt_signedWord neg ((decimalValue_lt hbytes).trans_le (Nat.pow_le_pow_right (by decide) hdigits))

end Sys2Proof.Machine
end

section
/-! PROOFS. The host access commands (44_host_access R280, R283, R286): BUF.WRITE stores one byte, BUF.READ and REG.READ
answer a value and change nothing else. -/

namespace Sys2Proof.Machine

/-! ### BUF.WRITE -/

/-- Every buffer is in the canonical form for its own capacity. -/
theorem State.BuffersOk.buf_wf {s : State} (h : s.BuffersOk) (b : BufId) : (s.buf b).wf b.cap := by
  obtain ⟨hrx, htx, hout, hstm⟩ := h
  cases b with
  | rx => exact hrx
  | tx => exact htx
  | out => exact hout
  | stm => exact hstm

/-- Read after write over all buffers and indices: only the addressed byte is new. -/
theorem get_buf_setBuf_set {s : State} (h : s.BuffersOk) (buf b : BufId) (a i : Nat) (v : Byte) :
    ((s.setBuf buf ((s.buf buf).set a v)).buf b).get i = if b = buf ∧ i = a then v else (s.buf b).get i := by
  by_cases hb : b = buf
  · subst hb
    rw [buf_setBuf_self]
    by_cases hi : i = a
    · rw [if_pos ⟨rfl, hi⟩, hi, Memory.get_set_self (h.buf_wf b)]
    · rw [if_neg fun hbi => hi hbi.2, Memory.get_set_ne (h.buf_wf b) v hi]
  · rw [if_neg fun hbi => hb hbi.1, buf_setBuf_ne s _ hb]

/-- The end of a command leaves the buffers alone. -/
@[simp] theorem buf_finish (code : Word) (s : State) (b : BufId) : (finish code s).buf b = s.buf b := by
  cases b <;> rfl

/-- So does its acceptance. -/
@[simp] theorem buf_accept (opc : Byte) (s : State) (b : BufId) : (accept opc s).buf b = s.buf b := by
  cases b <;> rfl

theorem exec_bufWrite {buf : BufId} {idx : Byte} (v : Byte) {s : State} (hidx : legalIdx buf idx = true) (hs : s.Ready) :
    exec (.bufWrite buf idx v) s =
      .next (finish 0 ((accept 0x20 s).setBuf buf (((accept 0x20 s).buf buf).set idx.toNat v))) := by
  rw [exec_ready (i := .bufWrite buf idx v) hidx hs, execBody, writeByte_of_lt ((legalIdx_iff buf idx).mp hidx)]
  rfl

/-- Settles O26: the frame buffer by buffer, the bytes by `get_buf_setBuf_set` on the accepted state. -/
theorem bufWriteStores : Obligations.BufWriteStores := by
  intro buf idx v s hidx hs hbufs
  rw [exec_bufWrite v hidx hs]
  refine .of_next ⟨?_, fun b i => ?_⟩
  · cases buf <;> rfl
  · have haccepted : (accept 0x20 s).BuffersOk := hbufs
    rw [buf_finish, get_buf_setBuf_set haccepted, buf_accept]

/-! ### Words as numbers, and BUF.READ -/

theorem zext32_eq_ofNat {n : Nat} (v : BitVec n) : zext32 v = BitVec.ofNat 32 v.toNat := (BitVec.ofNat_toNat 32 v).symm

theorem word_eq_ofNat {w : Word} {n : Nat} (h : w.toNat = n) : w = BitVec.ofNat 32 n := by
  rw [← h, BitVec.ofNat_toNat, BitVec.setWidth_eq]

/-- Settles O27: a legal index is within its buffer, so the byte is read. -/
theorem bufReadReturns : Obligations.BufReadReturns := by
  intro buf idx s hidx hs
  rw [exec_ready (i := .bufRead buf idx) hidx hs, execBody, readByte_of_lt ((legalIdx_iff buf idx).mp hidx), buf_accept,
    zext32_eq_ofNat]
  rfl

/-! ### REG.READ -/

theorem StmEngine.lastWord_toNat (e : StmEngine) : e.lastWord.toNat = e.lastv.toNat * 2 ^ 8 + e.lastb.toNat := by
  simp only [StmEngine.lastWord, toNat_append_eq_add, BitVec.toNat_ofBool, BitVec.ofNat_eq_ofNat, BitVec.toNat_ofNat,
    Nat.zero_mod, Nat.zero_mul, Nat.zero_add]

theorem PerChannel.bits_toNat (p : PerChannel Bool) :
    p.bits.toNat = p.c0.toNat + p.c1.toNat * 2 ^ 1 + p.c2.toNat * 2 ^ 2 + p.c3.toNat * 2 ^ 3 := by
  simp only [PerChannel.bits, toNat_append_eq_add, BitVec.toNat_ofBool]
  omega

/-- Each line's bit counts with the weight of its place in the joined word. -/
theorem Lines.toWord_toNat (s : State) : s.lines.toWord.toNat = regTable s .lines := by
  simp only [Lines.toWord, regTable, toNat_append_eq_add, PerChannel.bits_toNat, BitVec.toNat_ofBool,
    BitVec.ofNat_eq_ofNat, BitVec.toNat_ofNat, Nat.zero_mod]
  omega

/-- The word of each register is R286's number: extended, as it stands, or packed. -/
theorem regValue_eq_ofNat (s : State) (reg : RegId) : regValue s reg = BitVec.ofNat 32 (regTable s reg) := by
  cases reg with
  | rxIdx => exact zext32_eq_ofNat s.rxIdx
  | stmIdx => exact zext32_eq_ofNat s.stmIdx
  | temp => exact word_eq_ofNat rfl
  | soil => exact word_eq_ofNat rfl
  | stype ch => exact zext32_eq_ofNat (s.stype.get ch)
  | tocnt => exact zext32_eq_ofNat s.stm.tocnt
  | stmLast => exact word_eq_ofNat s.stm.lastWord_toNat
  | lines => exact word_eq_ofNat (Lines.toWord_toNat s)
  | cpFail => exact zext32_eq_ofNat s.cp.fail

/-- Settles O28: the accepted state's registers are those that stood. -/
theorem regReadReturns : Obligations.RegReadReturns := by
  intro reg s hs
  have hvalue : regValue (accept 0x22 s) reg = regValue s reg := by cases reg <;> rfl
  rw [exec_ready (i := .regRead reg) rfl hs, ← regValue_eq_ofNat, ← hvalue]
  rfl

end Sys2Proof.Machine
end

section
/-! PROOFS. A command word is ignored, rejected or executed, and what acceptance leaves in `STATUS`
(60_exceptions R300–R303, R313). -/

namespace Sys2Proof.Machine

/-- Every command word, whether it decodes or not, goes through the checks of `onCommand` (R300). -/
theorem exists_onCmd_eq_onCommand (w : Word) : ∃ legal opc body, ∀ s, onCmd w s = onCommand legal opc body s := by
  cases h : decode w with
  | ok i => exact ⟨_, _, _, fun s => (onCmd_of_decode_ok h s).trans (exec_eq i s)⟩
  | error e => exact ⟨_, _, _, onCmd_of_decode_error h⟩

/-- Settles O7: the checks of `onCommand` in their order; a word that decodes leaves the last one to its command. -/
theorem commandOrder : Obligations.CommandOrder := by
  intro w s
  obtain ⟨legal, opc, body, honCmd⟩ := exists_onCmd_eq_onCommand w
  refine ⟨fun hf => ?_, fun hf ha => ?_, fun hs e he => ?_, fun _ i hi => onCmd_of_decode_ok hi s⟩
  · exact (honCmd s).trans (onCommand_fault hf)
  · exact (honCmd s).trans (onCommand_busy hf ha)
  · exact (onCmd_of_decode_error he s).trans (onCommand_illegal hs)

/-! ### `STATUS` after acceptance -/

@[simp] theorem beginTx_status (v : Byte) (s : State) : (beginTx v s).status = s.status := by
  rw [beginTx_eq]

@[simp] theorem beginRx_status (s : State) : (beginRx s).status = s.status := by
  rw [beginRx_eq]

@[simp] theorem parse_status (P : Params) (s : State) : (parse P s).status = s.status := by
  rw [parse_eq]

@[simp] theorem grabmsg_status (P : Params) (s : State) : (grabmsg P s).status = { s.status with active := false } := by
  simp only [grabmsg_eq, finish_status]
  split_ifs <;> rfl

/-- The body of a legal command completes, with `ACTIVE` 1 exactly for a command that waits for events (R301). -/
theorem execBody_status {i : Instr} (hi : i.wellFormed = true) (s : State) :
    Ends (execBody i s) fun t => t.status = { s.status with active := waitsForEvents i } := by
  cases i with
  | cpWaitstart => exact .of_next (startWaitstart_status s)
  | cpSendbyte v => exact .of_next (beginTx_status v _)
  | cpRecvbyte | cpWaitmsg => exact .of_next (beginRx_status _)
  | cpSendmsg len =>
    rw [execBody, startSendmsg, sendCurrent_of_lt (by simp)]
    exact .of_next (beginTx_status _ _)
  | cpGrabmsg => exact .of_next (grabmsg_status params s)
  | crcRun mode len => cases mode <;> exact .of_next rfl
  | stmMeasure ch => exact .of_next (startStm_status .measure ch s)
  | stmTypeprobe ch => exact .of_next (startStm_status .typeprobe ch s)
  | stmChecksum => exact .of_next (finish_status _ s)
  | stmParse => exact .of_next (by simp [waitsForEvents])
  | bufWrite buf idx v =>
    rw [execBody, writeByte_of_lt ((legalIdx_iff buf idx).mp hi)]
    exact .of_next (by simp [waitsForEvents])
  | bufRead buf idx =>
    rw [execBody, readByte_of_lt ((legalIdx_iff buf idx).mp hi)]
    exact .of_next (finish_status _ s)
  | regRead reg => exact .of_next (finish_status _ s)

/-- Settles O8: the body runs on the accepted state, and sets `ACTIVE` as its command needs. -/
theorem legalCommandsAccepted : Obligations.LegalCommandsAccepted := by
  intro i s hi hs
  rw [exec_ready hi hs]
  exact execBody_status hi (accept i.opcode s)

end Sys2Proof.Machine
end

section
/-! PROOFS. An event updates its line level and then reaches its engine, if it is an edge and no fault stands; what the
engine does not wait for is dropped, and a fault is left by `Reset` alone (10_state R41, 60_exceptions R307, R312, R313). -/

namespace Sys2Proof.Machine

/-! ### An event is its line bookkeeping, then its engine -/

@[simp] theorem bookkept_cp (i : Input) (s : State) : (bookkept i s).cp = s.cp := rfl
@[simp] theorem bookkept_stm (i : Input) (s : State) : (bookkept i s).stm = s.stm := rfl
@[simp] theorem bookkept_clkLvl (i : Input) (s : State) : (bookkept i s).lines.clkLvl = clkAfter i s := rfl

/-- The event is one its engine can see: a rise or fall of the clock, a fall of another line, or an event with no line (R41). -/
def isEdge (i : Input) (s : State) : Bool :=
  match i with
  | .clkRise => !s.lines.clkLvl
  | .clkFall => s.lines.clkLvl
  | .datSet v => !v && s.lines.datPeer
  | .rxSet ch v => !v && s.lines.rxLvl.get ch
  | .wake | .delayDone | .bitTick | .rollover => true
  | .cmd _ | .reset => false

/-- What the engine of an event does with it, the line levels being updated (R307). -/
def engineOf : Input → State → Result
  | .clkRise => cpClkRise
  | .clkFall => cpClkFall
  | .datSet _ => cpDatFall
  | .wake => cpWake
  | .rxSet ch _ => stmRxFall ch
  | .delayDone => stmDelayDone
  | .bitTick => stmBitTick
  | .rollover => stmRollover params
  | .cmd _ | .reset => .next

/-- Every event has this one shape (R41, R307). -/
theorem takeInput_event {i : Input} (hi : isEvent i = true) (s : State) :
    takeInput i s =
      if isEdge i s then onEvent (engineOf i) (bookkept i s) else .next (bookkept i s) := by
  cases i with
  | clkRise =>
    cases hclk : s.lines.clkLvl with
    | true => simp [takeInput, onClkRise, isEdge, hclk, bookkept_clkRise_of_high]
    | false => simp [takeInput, onClkRise, isEdge, hclk, engineOf, bookkept, clkAfter, datAfter, rxAfter]
  | clkFall =>
    cases hclk : s.lines.clkLvl with
    | true => simp [takeInput, onClkFall, isEdge, hclk, engineOf, bookkept, clkAfter, datAfter, rxAfter]
    | false => simp [takeInput, onClkFall, isEdge, hclk, bookkept_clkFall_of_low]
  | datSet v =>
    by_cases hdat : s.lines.datPeer = v
    · simp [takeInput, onDatSet, isEdge, hdat, bookkept_datSet_of_eq]
    · cases v <;> simp [takeInput, onDatSet, isEdge, hdat, engineOf, bookkept, clkAfter, datAfter, rxAfter]
  | rxSet ch v =>
    by_cases hlvl : s.lines.rxLvl.get ch = v
    · simp [takeInput, onRxSet, isEdge, hlvl, bookkept_rxSet_of_eq]
    · cases v <;> simp [takeInput, onRxSet, isEdge, hlvl, engineOf, bookkept, clkAfter, datAfter, rxAfter]
  | wake | delayDone | bitTick | rollover => rfl
  | cmd | reset => cases hi

/-- In a fault an event is its line bookkeeping (R307, R313). -/
theorem takeInput_event_fault {i : Input} {s : State} (hi : isEvent i = true) (hf : s.status.fault = true) :
    takeInput i s = .next (bookkept i s) := by
  rw [takeInput_event hi, onEvent_fault (s := bookkept i s) hf, ite_self]

/-- So is an event that its engine, if it sees an edge, has no use for. -/
theorem takeInput_event_dropped {i : Input} {s : State} (hi : isEvent i = true)
    (h : isEdge i s = true → engineOf i (bookkept i s) = .next (bookkept i s)) :
    takeInput i s = .next (bookkept i s) := by
  rw [takeInput_event hi]
  split_ifs with hedge
  · exact onEvent_dropped (h hedge)
  · rfl

/-! ### What R307's table does not name -/

theorem cpClkFall_of_not_waiting {s : State} (h : ¬(s.cp.cps = .ws2 ∨ s.cp.cps = .sync ∨ s.cp.cps = .xfer)) :
    cpClkFall s = .next s := by
  unfold cpClkFall
  cases hcps : s.cp.cps with
  | idle | ws1 => rfl
  | ws2 | sync | xfer => simp [hcps] at h

theorem stmRxFall_of_not_startBit {ch : Channel} {s : State}
    (h : ¬(s.stm.sts = .armed ∧ s.stm.edgeEn = true ∧ ch = s.stm.ch)) : stmRxFall ch s = .next s := by
  by_cases hsts : s.stm.sts = .armed
  · simp only [stmRxFall, hsts]
    exact if_neg (by simpa [hsts] using h)
  · exact stmRxFall_of_ne_armed hsts

theorem stmDelayDone_of_ne_exciting {s : State} (h : s.stm.sts ≠ .exciting) : stmDelayDone s = .next s := by
  unfold stmDelayDone
  split
  · exact absurd ‹_› h
  all_goals rfl

theorem stmBitTick_of_ne_sampling {s : State} (h : s.stm.sts ≠ .sampling) : stmBitTick s = .next s := by
  unfold stmBitTick
  split
  · exact absurd ‹_› h
  all_goals rfl

theorem stmRollover_of_ne_armed {P : Params} {s : State} (h : s.stm.sts ≠ .armed) : stmRollover P s = .next s := by
  unfold stmRollover
  split
  · exact absurd ‹_› h
  all_goals rfl

/-- The engine drops an edge the table does not name for its state, row by row (R307). -/
theorem engineOf_of_not_named {i : Input} {s : State} (h : named i s = false) (hedge : isEdge i s = true) :
    engineOf i (bookkept i s) = .next (bookkept i s) := by
  cases i with
  | clkRise => exact cpClkRise_of_ne_xfer (by simpa [named] using h)
  | clkFall => exact cpClkFall_of_not_waiting (by simpa [named, and_assoc] using h)
  | datSet v =>
    obtain ⟨rfl, hdat⟩ : v = false ∧ s.lines.datPeer = true := by simpa [isEdge] using hedge
    by_cases hcps : s.cp.cps = .ws1
    · exact cpDatFall_of_low (by simpa [named, hcps, hdat, clkAfter] using h)
    · exact cpDatFall_of_ne_ws1 hcps
  | wake => exact cpWake_of_ne_ws1 (by simpa [named] using h)
  | rxSet ch v =>
    obtain ⟨rfl, hlvl⟩ : v = false ∧ s.lines.rxLvl.get ch = true := by simpa [isEdge] using hedge
    exact stmRxFall_of_not_startBit (by simpa [named, hlvl] using h)
  | delayDone => exact stmDelayDone_of_ne_exciting (by simpa [named] using h)
  | bitTick => exact stmBitTick_of_ne_sampling (by simpa [named] using h)
  | rollover => exact stmRollover_of_ne_armed (by simpa [named] using h)
  | cmd | reset => cases h

theorem isEvent_of_not_named {i : Input} {s : State} (h : named i s = false) : isEvent i = true := by
  cases i with
  | cmd | reset => cases h
  | _ => rfl

theorem takeInput_of_not_named {i : Input} {s : State} (h : named i s = false) : takeInput i s = .next (bookkept i s) :=
  takeInput_event_dropped (isEvent_of_not_named h) (engineOf_of_not_named h)

theorem not_named_of_cp_idle {i : Input} {s : State} (hi : isCpInput i = true) (h : s.cp.cps = .idle) :
    named i s = false := by
  cases i with
  | clkRise | clkFall | datSet | wake => simp [named, h]
  | cmd | rxSet | delayDone | bitTick | rollover | reset => cases hi

/-- Settles O51: what the table does not name is dropped, and an idle engine is named by none of its inputs. -/
theorem eventsDropped : Obligations.EventsDropped := by
  refine ⟨fun i s h => ?_, fun i s hcp hstm hi => ?_, fun i s hinv hcps h => ?_, fun i s hinv hsts hi => ?_⟩
  · obtain ⟨hf, hi⟩ | hn := h
    · exact takeInput_event_fault hi hf
    · exact takeInput_of_not_named hn
  · obtain hi | hi : isCpInput i = true ∨ isStmInput i = true := by simpa [isEvent] using hi
    · exact takeInput_of_not_named (not_named_of_cp_idle hi hcp)
    · exact takeInput_stm_of_idle hi hstm
  · obtain ⟨-, -, -, ⟨-, hone⟩, -⟩ := hinv
    obtain ⟨hidle, hws1⟩ : s.cp.cps ≠ .idle ∧ s.cp.cps ≠ .ws1 := by obtain h | h := hcps <;> simp [h]
    obtain hi | rfl | ⟨v, rfl⟩ := h
    · exact takeInput_stm_of_idle hi (hone.resolve_left hidle)
    · exact takeInput_of_not_named (by simp [named, hws1])
    · exact takeInput_of_not_named (by simp [named, hws1])
  · obtain ⟨-, -, -, ⟨-, hone⟩, -⟩ := hinv
    exact takeInput_of_not_named (not_named_of_cp_idle hi (hone.resolve_right hsts))

/-! ### In a fault -/

theorem Input.kind (i : Input) : (∃ w, i = .cmd w) ∨ i = .reset ∨ isEvent i = true := by
  cases i with
  | cmd w => exact .inl ⟨w, rfl⟩
  | reset => exact .inr (.inl rfl)
  | _ => exact .inr (.inr rfl)

/-- Settles O52: a command word is ignored, an event is its line bookkeeping, and `Reset` gives the reset state. -/
theorem faultLeftOnlyByReset : Obligations.FaultLeftOnlyByReset := by
  intro i s hf
  refine ⟨fun hi => ⟨?_, if_pos hf⟩, ?_⟩
  · obtain ⟨w, rfl⟩ | hreset | hevent := i.kind
    · obtain ⟨hignored, -⟩ := commandOrder w s
      exact hignored hf
    · exact absurd hreset hi
    · exact takeInput_event_fault hevent hf
  · rintro rfl
    exact ⟨doReset s, rfl, rfl, rfl, rfl⟩

end Sys2Proof.Machine
end

section
/-! PROOFS. In the states a run reaches, the one step that sets `FAULT` is the end of a CP.RECVBYTE's byte with `RX_BUF`
full (41_framer R183, 60_exceptions R312, R314). -/

namespace Sys2Proof.Machine

/-- An operation on `s` that answers `r` neither raises nor clears a fault. -/
def KeepsFault (s : State) (r : Result) : Prop := ∀ t, r = .next t → t.status.fault = s.status.fault

theorem KeepsFault.of_next {s t : State} (h : t.status.fault = s.status.fault) : KeepsFault s (.next t) := by
  rintro _ ⟨⟩
  exact h

theorem KeepsFault.of_fault {s : State} {r : Fault} : KeepsFault s (.fault r) := by
  rintro _ ⟨⟩

/-! ### The CP engine -/

theorem sendCurrent_keepsFault (s : State) : KeepsFault s (sendCurrent s) := by
  intro t ht
  obtain ⟨-, rfl⟩ := sendCurrent_cases ht
  rw [beginTx_status]

theorem sendmsgDone_keepsFault (s : State) : KeepsFault s (sendmsgDone s) := by
  simp only [sendmsgDone]
  split_ifs
  · exact .of_next rfl
  · exact sendCurrent_keepsFault { s with cp := { s.cp with fail := s.cp.fail + 1 } }
  · exact .of_next rfl
  · exact sendCurrent_keepsFault { s with cp := { s.cp with txi := s.cp.txi + 1 } }

theorem byteDoneTx_keepsFault (s : State) : KeepsFault s (byteDoneTx s) := by
  unfold byteDoneTx
  cases s.cp.op with
  | sendbyte => exact .of_next rfl
  | sendmsg => exact sendmsgDone_keepsFault s
  | none | waitstart | recvbyte | waitmsg => exact .of_fault

theorem txFall_keepsFault (s : State) : KeepsFault s (txFall s) := by
  simp only [txFall]
  split_ifs
  · exact .of_next rfl
  · exact .of_next rfl
  · exact .of_next rfl
  · exact byteDoneTx_keepsFault s
  · exact .of_next rfl

theorem waitmsgDone_keepsFault (s : State) : KeepsFault s (waitmsgDone s) := by
  rw [waitmsgDone_eq]
  split_ifs
  · exact .of_next rfl
  · exact .of_next rfl
  · exact .of_next (congrArg Status.fault (beginRx_status s))

theorem byteDoneRx_keepsFault (s : State) : KeepsFault s (byteDoneRx s) := by
  unfold byteDoneRx
  cases s.cp.op with
  | recvbyte => exact .of_next rfl
  | waitmsg => exact waitmsgDone_keepsFault s
  | none | waitstart | sendbyte | sendmsg => exact .of_fault

@[simp] theorem startCycle1_status (s : State) : (startCycle1 s).status = s.status := by
  unfold startCycle1
  cases s.cp.dir <;> rfl

@[simp] theorem xferRise_fault (s : State) : (xferRise s).status.fault = s.status.fault := by
  unfold xferRise
  cases s.cp.dir with
  | tx => dsimp only [txRise]; split_ifs <;> rfl
  | rx => dsimp only [rxRise]; split_ifs <;> rfl

theorem cpClkRise_keepsFault (s : State) : KeepsFault s (cpClkRise s) := by
  unfold cpClkRise
  cases s.cp.cps with
  | xfer => exact .of_next (xferRise_fault s)
  | idle | ws1 | ws2 | sync => exact .of_next rfl

theorem cpDatFall_keepsFault (s : State) : KeepsFault s (cpDatFall s) := by
  unfold cpDatFall
  cases s.cp.cps with
  | ws1 => dsimp only; split_ifs <;> exact .of_next rfl
  | idle | ws2 | sync | xfer => exact .of_next rfl

theorem cpWake_keepsFault (s : State) : KeepsFault s (cpWake s) := by
  unfold cpWake
  cases s.cp.cps <;> exact .of_next rfl

/-! ### The STM engine -/

theorem stmDelayDone_keepsFault (s : State) : KeepsFault s (stmDelayDone s) := by
  unfold stmDelayDone
  cases s.stm.sts <;> exact .of_next rfl

theorem stmRxFall_keepsFault (ch : Channel) (s : State) : KeepsFault s (stmRxFall ch s) := by
  unfold stmRxFall
  cases s.stm.sts with
  | armed => dsimp only; split_ifs <;> exact .of_next rfl
  | idle | exciting | sampling => exact .of_next rfl

theorem stmBitTick_keepsFault (s : State) : KeepsFault s (stmBitTick s) := by
  unfold stmBitTick
  cases s.stm.sts with
  | sampling =>
    dsimp only
    split_ifs
    · exact .of_next rfl
    · intro t ht
      obtain ⟨-, rfl⟩ := storeByte_cases ht
      rfl
  | idle | exciting | armed => exact .of_next rfl

theorem countRollover_fault (P : Params) (s : State) : (countRollover P s).status.fault = s.status.fault := by
  simp only [countRollover]
  split_ifs
  · rw [finishStm_eq]
  · rw [finishStm_eq]
  · rfl

theorem stmRollover_keepsFault (P : Params) (s : State) : KeepsFault s (stmRollover P s) := by
  unfold stmRollover
  cases s.stm.sts with
  | armed => exact .of_next (countRollover_fault P s)
  | idle | exciting | sampling => exact .of_next rfl

/-! ### The one fault -/

/-- No engine raises a fault at an event other than the clock fall. -/
theorem engineOf_keepsFault {i : Input} (hi : i ≠ .clkFall) (s : State) : KeepsFault s (engineOf i s) := by
  cases i with
  | clkRise => exact cpClkRise_keepsFault s
  | clkFall => exact absurd rfl hi
  | datSet v => exact cpDatFall_keepsFault s
  | wake => exact cpWake_keepsFault s
  | rxSet ch v => exact stmRxFall_keepsFault ch s
  | delayDone => exact stmDelayDone_keepsFault s
  | bitTick => exact stmBitTick_keepsFault s
  | rollover => exact stmRollover_keepsFault params s
  | cmd | reset => exact .of_next rfl

/-- The step from `s` to `t` is the end of a received byte with `RX_BUF` full, which keeps `RESULT` and `RX_BUF` (R145, R312). -/
structure Overruns (s t : State) : Prop where
  cps : s.cp.cps = .xfer
  dir : s.cp.dir = .rx
  cyc : s.cp.cyc = 10
  full : s.rxIdx = 64
  result : t.result = s.result
  rxBuf : t.rxBuf = s.rxBuf

theorem rxFall_faults {s t : State} (hcps : s.cp.cps = .xfer) (hdir : s.cp.dir = .rx) (h : rxFall s = .next t)
    (hne : t.status.fault ≠ s.status.fault) : Overruns s t := by
  unfold rxFall at h
  split_ifs at h with h9 h10
  · exact absurd (KeepsFault.of_next rfl t h) hne
  · obtain ⟨hfull, rfl⟩ | ⟨-, hdone⟩ := appendByte_cases h
    · exact ⟨hcps, hdir, h10, hfull, rfl, rfl⟩
    · exact absurd (byteDoneRx_keepsFault _ t hdone) hne
  · exact absurd (KeepsFault.of_next rfl t h) hne

theorem cpClkFall_faults {s t : State} (h : cpClkFall s = .next t) (hne : t.status.fault ≠ s.status.fault) :
    Overruns s t := by
  unfold cpClkFall at h
  cases hcps : s.cp.cps with
  | xfer =>
    cases hdir : s.cp.dir with
    | tx =>
      have htx : txFall s = .next t := by simpa [hcps, xferFall, hdir] using h
      exact absurd (txFall_keepsFault s t htx) hne
    | rx => exact rxFall_faults hcps hdir (by simpa [hcps, xferFall, hdir] using h) hne
  | sync =>
    obtain rfl : startCycle1 s = t := by simpa [hcps] using h
    exact absurd (congrArg Status.fault (startCycle1_status s)) hne
  | ws2 =>
    obtain rfl : finishCp 1 s = t := by simpa [hcps] using h
    exact absurd rfl hne
  | idle | ws1 =>
    obtain rfl : s = t := by simpa [hcps] using h
    exact absurd rfl hne

/-- A command word raises no fault: it is ignored, rejected, or accepted with `FAULT` as before (R301–R303). -/
theorem takeInput_cmd_keepsFault (w : Word) (s : State) : KeepsFault s (takeInput (.cmd w) s) := by
  obtain ⟨hfault, hbusy, hillegal, hexec⟩ := commandOrder w s
  cases hf : s.status.fault with
  | true => rw [hfault hf]; exact .of_next rfl
  | false =>
    cases ha : s.status.active with
    | true => rw [hbusy hf ha]; exact .of_next rfl
    | false =>
      cases hw : decode w with
      | error e => rw [hillegal ⟨hf, ha⟩ e hw]; exact .of_next rfl
      | ok i =>
        obtain ⟨hi, -⟩ := encodeOfDecode w i hw
        obtain ⟨t, ht, hstatus⟩ := legalCommandsAccepted i s hi ⟨hf, ha⟩
        rw [hexec ⟨hf, ha⟩ i hw, ht]
        exact .of_next (by rw [hstatus, acceptedStatus])

/-- An event that answers a next state left the line bookkeeping alone, or its engine acted on it. -/
theorem takeInput_event_cases {i : Input} {s t : State} (hi : isEvent i = true) (h : takeInput i s = .next t) :
    t = bookkept i s ∨ engineOf i (bookkept i s) = .next t := by
  rw [takeInput_event hi] at h
  split_ifs at h
  · exact (onEvent_cases h).imp And.right And.right
  · exact .inl (Host.Outcome.next.inj h).symm

/-- Whatever the state, an input that raises a fault is the clock fall that overruns `RX_BUF`. -/
theorem takeInput_faults {i : Input} {s t : State} (h : takeInput i s = .next t) (hf : s.status.fault = false)
    (hft : t.status.fault = true) : i = .clkFall ∧ Overruns s t := by
  have hne : t.status.fault ≠ s.status.fault := by simp [hf, hft]
  obtain ⟨w, rfl⟩ | rfl | hevent := i.kind
  · exact absurd (takeInput_cmd_keepsFault w s t h) hne
  · cases h
    cases hft
  · obtain rfl | hact := takeInput_event_cases hevent h
    · exact absurd rfl hne
    · by_cases hi : i = .clkFall
      · subst hi
        obtain ⟨hcps, hdir, hcyc, hfull, hresult, hrx⟩ := cpClkFall_faults hact hne
        exact ⟨rfl, hcps, hdir, hcyc, hfull, hresult, hrx⟩
      · exact absurd (engineOf_keepsFault hi _ t hact) hne

/-- A CP.WAITMSG that has not ended has room for its next byte (R183). -/
theorem State.WaitmsgOk.rxIdx_ne {s : State} (h : s.WaitmsgOk) : s.rxIdx ≠ 64 := by
  rintro hfull
  have hidx : s.rxIdx.toNat = 64 := congrArg BitVec.toNat hfull
  obtain hlt | ⟨hlen, hlt⟩ := h
  · omega
  · have := (legalLen_iff _).mp hlen
    omega

/-- Settles O42: a receive that overruns is no CP.WAITMSG, which the invariant keeps below the end of its frame. -/
theorem onlyRecvbyteFaults : Obligations.OnlyRecvbyteFaults := by
  intro s t i hinv hf h hft
  obtain ⟨-, -, -, -, hcp, -⟩ := hinv
  obtain ⟨hi, hcps, hdir, hcyc, hfull, hresult, hrx⟩ := takeInput_faults h hf hft
  have hop : s.cp.op = .recvbyte := by
    obtain ⟨htx, -⟩ | ⟨-, hop | ⟨-, hwait⟩⟩ := hcp.owned (.inr hcps)
    · simp [hdir] at htx
    · exact hop
    · exact absurd hfull hwait.rxIdx_ne
  exact ⟨hi, hop, hcyc, hfull, hresult, hrx⟩

end Sys2Proof.Machine
end

section
/-! PROOFS. `Reset` gives every register its reset value, and it alone clears `PARITY_ERR`, `FAULT` and `FAULT_CAUSE`
(40_cp_link R142, 70_reset_and_hazards R340, R341). -/

namespace Sys2Proof.Machine

/-- Settles O57: `Reset` leaves the reset state, whose every field reads off its definition. -/
theorem resetValues : Obligations.ResetValues := by
  refine ⟨fun s => rfl, rfl, by decide, rfl, rfl, rfl, fun b i => ?buffer, rfl, rfl, rfl, rfl, fun ch => ?registry⟩
  case buffer => cases b <;> rfl
  case registry => cases ch <;> rfl

/-! ### No operation clears `PARITY_ERR` -/

/-- An operation on `s` that answers `r` does not clear `PARITY_ERR`. -/
def KeepsParityErr (s : State) (r : Result) : Prop :=
  ∀ t, r = .next t → s.status.parityErr = true → t.status.parityErr = true

theorem KeepsParityErr.of_next {s t : State} (h : t.status.parityErr = s.status.parityErr) : KeepsParityErr s (.next t) := by
  rintro _ ⟨⟩ hp
  exact h.trans hp

theorem KeepsParityErr.of_fault {s : State} {r : Fault} : KeepsParityErr s (.fault r) := by
  rintro _ ⟨⟩

theorem sendCurrent_keepsParityErr (s : State) : KeepsParityErr s (sendCurrent s) := by
  intro t ht hp
  obtain ⟨-, rfl⟩ := sendCurrent_cases ht
  rwa [beginTx_status]

theorem byteDoneTx_keepsParityErr (s : State) : KeepsParityErr s (byteDoneTx s) := by
  unfold byteDoneTx
  cases s.cp.op with
  | sendbyte => exact .of_next rfl
  | sendmsg =>
    simp only [sendmsgDone]
    split_ifs
    · exact .of_next rfl
    · exact sendCurrent_keepsParityErr { s with cp := { s.cp with fail := s.cp.fail + 1 } }
    · exact .of_next rfl
    · exact sendCurrent_keepsParityErr { s with cp := { s.cp with txi := s.cp.txi + 1 } }
  | none | waitstart | recvbyte | waitmsg => exact .of_fault

theorem byteDoneRx_keepsParityErr (s : State) : KeepsParityErr s (byteDoneRx s) := by
  unfold byteDoneRx
  cases s.cp.op with
  | recvbyte => exact .of_next rfl
  | waitmsg =>
    simp only [waitmsgDone_eq]
    split_ifs
    · exact .of_next rfl
    · exact .of_next rfl
    · exact .of_next (congrArg Status.parityErr (beginRx_status s))
  | none | waitstart | sendbyte | sendmsg => exact .of_fault

/-- A rise in a receive adds the parity bit's mismatch to the flag, and takes nothing off it (R141, R142). -/
theorem rxRise_parityErr {s : State} (hp : s.status.parityErr = true) : (rxRise s).status.parityErr = true := by
  simp only [rxRise]
  split_ifs
  · exact hp
  · simp [rxParityBit, hp]
  · exact hp

theorem cpClkRise_keepsParityErr (s : State) : KeepsParityErr s (cpClkRise s) := by
  unfold cpClkRise xferRise
  cases s.cp.cps with
  | xfer =>
    cases s.cp.dir with
    | tx => dsimp only [txRise]; split_ifs <;> exact .of_next rfl
    | rx =>
      rintro _ ⟨⟩ hp
      exact rxRise_parityErr hp
  | idle | ws1 | ws2 | sync => exact .of_next rfl

theorem txFall_keepsParityErr (s : State) : KeepsParityErr s (txFall s) := by
  simp only [txFall]
  split_ifs
  · exact .of_next rfl
  · exact .of_next rfl
  · exact .of_next rfl
  · exact byteDoneTx_keepsParityErr s
  · exact .of_next rfl

/-- An overrun keeps the flag too: a fault writes `FAULT`, its cause and `ACTIVE` of `STATUS` (R312). -/
theorem rxFall_keepsParityErr (s : State) : KeepsParityErr s (rxFall s) := by
  unfold rxFall
  split_ifs
  · exact .of_next rfl
  · intro t ht hp
    obtain ⟨-, rfl⟩ | ⟨-, hdone⟩ := appendByte_cases ht
    · exact hp
    · exact byteDoneRx_keepsParityErr _ t hdone hp
  · exact .of_next rfl

theorem cpClkFall_keepsParityErr (s : State) : KeepsParityErr s (cpClkFall s) := by
  unfold cpClkFall xferFall
  cases s.cp.cps with
  | sync => exact .of_next (congrArg Status.parityErr (startCycle1_status s))
  | xfer =>
    cases s.cp.dir with
    | tx => exact txFall_keepsParityErr s
    | rx => exact rxFall_keepsParityErr s
  | idle | ws1 | ws2 => exact .of_next rfl

theorem cpDatFall_keepsParityErr (s : State) : KeepsParityErr s (cpDatFall s) := by
  unfold cpDatFall
  cases s.cp.cps with
  | ws1 => dsimp only; split_ifs <;> exact .of_next rfl
  | idle | ws2 | sync | xfer => exact .of_next rfl

theorem cpWake_keepsParityErr (s : State) : KeepsParityErr s (cpWake s) := by
  unfold cpWake
  cases s.cp.cps <;> exact .of_next rfl

theorem stmDelayDone_keepsParityErr (s : State) : KeepsParityErr s (stmDelayDone s) := by
  unfold stmDelayDone
  cases s.stm.sts <;> exact .of_next rfl

theorem stmRxFall_keepsParityErr (ch : Channel) (s : State) : KeepsParityErr s (stmRxFall ch s) := by
  unfold stmRxFall
  cases s.stm.sts with
  | armed => dsimp only; split_ifs <;> exact .of_next rfl
  | idle | exciting | sampling => exact .of_next rfl

theorem stmBitTick_keepsParityErr (s : State) : KeepsParityErr s (stmBitTick s) := by
  unfold stmBitTick
  cases s.stm.sts with
  | sampling =>
    dsimp only
    split_ifs
    · exact .of_next rfl
    · intro t ht hp
      obtain ⟨-, rfl⟩ := storeByte_cases ht
      exact hp
  | idle | exciting | armed => exact .of_next rfl

theorem stmRollover_keepsParityErr (P : Params) (s : State) : KeepsParityErr s (stmRollover P s) := by
  unfold stmRollover
  cases s.stm.sts with
  | armed =>
    simp only [countRollover, finishStm_eq]
    split_ifs <;> exact .of_next rfl
  | idle | exciting | sampling => exact .of_next rfl

theorem engineOf_keepsParityErr (i : Input) (s : State) : KeepsParityErr s (engineOf i s) := by
  cases i with
  | clkRise => exact cpClkRise_keepsParityErr s
  | clkFall => exact cpClkFall_keepsParityErr s
  | datSet v => exact cpDatFall_keepsParityErr s
  | wake => exact cpWake_keepsParityErr s
  | rxSet ch v => exact stmRxFall_keepsParityErr ch s
  | delayDone => exact stmDelayDone_keepsParityErr s
  | bitTick => exact stmBitTick_keepsParityErr s
  | rollover => exact stmRollover_keepsParityErr params s
  | cmd | reset => exact .of_next rfl

/-! ### The inputs -/

/-- A command word writes no `PARITY_ERR`, accepted or not (R301–R303). -/
theorem takeInput_cmd_keepsParityErr (w : Word) {s : State} (hf : s.status.fault = false) :
    KeepsParityErr s (takeInput (.cmd w) s) := by
  obtain ⟨-, hbusy, hillegal, hexec⟩ := commandOrder w s
  cases ha : s.status.active with
  | true => rw [hbusy hf ha]; exact .of_next rfl
  | false =>
    cases hw : decode w with
    | error e => rw [hillegal ⟨hf, ha⟩ e hw]; exact .of_next rfl
    | ok i =>
      obtain ⟨hi, -⟩ := encodeOfDecode w i hw
      obtain ⟨t, ht, hstatus⟩ := legalCommandsAccepted i s hi ⟨hf, ha⟩
      rw [hexec ⟨hf, ha⟩ i hw, ht]
      exact .of_next (by rw [hstatus, acceptedStatus])

theorem takeInput_keepsParityErr {i : Input} {s : State} (hi : i ≠ .reset) (hf : s.status.fault = false) :
    KeepsParityErr s (takeInput i s) := by
  obtain ⟨w, rfl⟩ | hreset | hevent := i.kind
  · exact takeInput_cmd_keepsParityErr w hf
  · exact absurd hreset hi
  · intro t ht hp
    obtain rfl | hact := takeInput_event_cases hevent ht
    · exact hp
    · exact engineOf_keepsParityErr i (bookkept i s) t hact hp

/-- Settles O53: in a fault nothing but line levels changes, and without one the parity bit of a received byte, which only
sets the flag, is the one writer of `PARITY_ERR`. -/
theorem stickyFlags : Obligations.StickyFlags := by
  intro i s t hi h
  cases hf : s.status.fault with
  | true =>
    obtain ⟨hstep, -⟩ := (faultLeftOnlyByReset i s hf).1 hi
    obtain rfl : bookkept i s = t := Host.Outcome.next.inj (hstep.symm.trans h)
    exact ⟨id, fun _ => ⟨hf, rfl⟩⟩
  | false => exact ⟨takeInput_keepsParityErr hi hf t h, fun hlive => by cases hlive⟩

end Sys2Proof.Machine
end
